-- ==== Sys2Proof/Word.lean ====
section
/-! DEFINITION. The words of the block: glyph bytes, selectors, frames, and the six-byte GlyphBuffer
(spec/10_state.md R21, R23, R26). -/

namespace Sys2Proof

/-- A glyph byte, a byte of the frame or a byte on the serial bus (00_scope.md R8, `BYTE_W` = 8). -/
abbrev Byte := BitVec 8

/-- A selector as its port and register carry it: `SEL_W` = 8 bits, two's complement
(10_state.md R23, 30_encoding.md R75; assumption log 4). -/
abbrev Sel := BitVec 8

/-- A 64-bit word that may be a frame (10_state.md R26). -/
abbrev FrameWord := BitVec 64

/-- The GlyphBuffer: exactly six bytes, index 0 to 5 (10_state.md R21). -/
structure GlyphBuffer where
  g0 : Byte
  g1 : Byte
  g2 : Byte
  g3 : Byte
  g4 : Byte
  g5 : Byte
  deriving DecidableEq, Repr

/-- Six zero bytes. -/
def GlyphBuffer.blank : GlyphBuffer := ⟨0, 0, 0, 0, 0, 0⟩

end Sys2Proof
end

