-- ==== Sys2Proof/Config.lean ====
section
/-! DEFINITION. What is fixed for the machine (spec/00_scope.md R8, R10, spec/30_encoding.md R84) and the
values the spec leaves free, as constants with no body. -/

namespace Sys2Proof.Config

/-- `OPC`, the write-command opcode, 3 bits (00_scope.md R8, 10_state.md R32). -/
def opc : BitVec 3 := 0b101

/-- `ADDR`, 6 bits, hardwired 0 (00_scope.md R8, 10_state.md R32). -/
def addr : BitVec 6 := 0

/-- The padding that ends a frame, 7 zero bits (00_scope.md R8, 10_state.md R32). -/
def pad : BitVec 7 := 0

/-- The indicator mask, bit `IND_BIT` = 7 of a glyph byte (00_scope.md R8, R11). -/
def indMask : Byte := 0x80

/-- The bits of a frame that are constant (30_encoding.md R72). -/
def frameMask : FrameWord := 0xFF8000000000007F

/-- The value of the constant bits of a frame (30_encoding.md R72). -/
def frameMatch : FrameWord := 0xA000000000000000

/-- `INIT1`, "disable/reset", first byte first (30_encoding.md R84). -/
def init1Bytes : List Byte := [0x80, 0x00]

/-- `INIT2`, first byte first (30_encoding.md R84). -/
def init2Bytes : List Byte := [0x80, 0x22, 0x90, 0x18, 0x30]

/-- The character the Digit Encoder folds (00_scope.md R10). -/
def dotChar : Char := '.'

/-- Which of the two truncation statements the Digit Encoder follows (00_scope.md R10, 90_conflicts.md C1). -/
inductive TruncMode where
  /-- only the first six input characters are considered, before folding -/
  | input6
  /-- the first six glyphs are kept -/
  | glyph6
  deriving DecidableEq, Repr

/-- `DOT_MASK` at the spec's default. DESIGN CHOICE, unsafe for claims about dots in a text: the parameter is open
(92_eei_decisions.md D20; assumption log 17). -/
def dotMask : Byte := 0x80

/-- `TRUNC_MODE` at the spec's default. DESIGN CHOICE, unsafe for claims about over-long texts: the parameter is
open (92_eei_decisions.md D20; assumption log 17). -/
def truncMode : TruncMode := .input6

/-- FREE VALUE, safe: the glyph table, a total function of which no value is known
(40_digit_encoder_upstream.md R102; assumption log 16). -/
opaque glyph : Char → Byte

/-- FREE VALUE, safe: whether the n-th transfer ends in a failure that the transport reports
(43_transport_downstream.md R174; assumption log 10). -/
opaque transferFails : Nat → Bool

/-- FREE VALUE, safe: what the host reads on `frame_out` while `FRAME` holds no value, by the number of transfers
made so far (93_implementation_defined.md U10, U11; assumption log 3). -/
opaque unwrittenFrame : Nat → FrameWord

/-- FREE VALUE, safe: what the host reads on `gb_out[i]` while `GB` holds no value
(93_implementation_defined.md U10; assumption log 3). -/
opaque unwrittenGlyph : Nat → Byte

end Sys2Proof.Config
end

