-- ==== Sys2Proof/Syntax.lean ====
section
/-! DEFINITION. The twelve operations of spec/opcode_table.json. The nine micro-operations carry no operand in
their code: they take their operands from ports and registers (spec/30_encoding.md R74, R78). The frame carries its six
glyph bytes (R70), and the two initialisation transfers are constants (R84). -/

namespace Sys2Proof

/-- One constructor per row of the opcode table, in the table's order. -/
inductive Instr where
  /-- WRITE: a frame on the serial bus, with its six glyph bytes (30_encoding.md R70; sent by 43 R173) -/
  | write (g0 g1 g2 g3 g4 g5 : Byte)
  /-- LOAD (41_overlay.md R120) -/
  | load
  /-- CHECK (41_overlay.md R121) -/
  | check
  /-- OVL.DP (41_overlay.md R122) -/
  | ovlDp
  /-- OVL.BAT (41_overlay.md R123) -/
  | ovlBat
  /-- PACK.OPC (42_frame_builder.md R141) -/
  | packOpc
  /-- PACK.ADR (42_frame_builder.md R142) -/
  | packAdr
  /-- PACK.DAT (42_frame_builder.md R143) -/
  | packDat
  /-- PACK.PAD (42_frame_builder.md R144) -/
  | packPad
  /-- EMIT (42_frame_builder.md R145) -/
  | emit
  /-- INIT1, the transfer of `reset()` (43_transport_downstream.md R171) -/
  | init1
  /-- INIT2, the transfer of `initialize(config)` (43_transport_downstream.md R172) -/
  | init2
  deriving DecidableEq, Repr

/-- Where an operation's bits stand: in the sequencer's `PHASE` register (format PHASE4), or in the bytes of one
transfer on the serial bus, first byte sent first (formats FRAME64, BYTES2, BYTES5; 30_encoding.md R79). -/
inductive Code where
  | phase (c : BitVec 4)
  | transfer (bytes : List Byte)
  deriving DecidableEq, Repr

end Sys2Proof
end

