-- ==== Sys2Proof/WellFormed.lean ====
section
/-! DEFINITION. Which words, codes and instructions are well formed. -/

namespace Sys2Proof

/-- A 64-bit word is a well-formed FRAME64 exactly when its constant bits have their value (30_encoding.md R73). -/
def frameWellFormed (w : FrameWord) : Bool := w &&& Config.frameMask == Config.frameMatch

/-- `PHASE` codes 0 to 8 have a meaning, 9 to 15 have none (30_encoding.md R78, R82). -/
def phaseLegal (c : BitVec 4) : Bool := decide (c.toNat ≤ 8)

/-- `IDX` values 0 to 5 name a glyph register, 6 and 7 have no meaning (30_encoding.md R82). -/
def idxLegal (c : BitVec 3) : Bool := decide (c.toNat ≤ 5)

/-- `ECODE` 3 has no meaning (30_encoding.md R82). -/
def ecodeLegal (c : BitVec 2) : Bool := decide (c.toNat ≤ 2)

/-- The 64-bit word of eight bytes, the first of them most significant (20_memory.md R56). -/
def wordOfBytes (b0 b1 b2 b3 b4 b5 b6 b7 : Byte) : FrameWord :=
  BitVec.cast rfl (b0 ++ b1 ++ b2 ++ b3 ++ b4 ++ b5 ++ b6 ++ b7)

/-- The transfers the transport may be given: a frame of eight bytes, `INIT1` or `INIT2`
(30_encoding.md R79, R84). -/
def transferWellFormed (bytes : List Byte) : Bool :=
  match bytes with
  | [b0, b1, b2, b3, b4, b5, b6, b7] => frameWellFormed (wordOfBytes b0 b1 b2 b3 b4 b5 b6 b7)
  | bs => bs == Config.init1Bytes || bs == Config.init2Bytes

/-- A code is well formed when it is the code of some operation. -/
def Code.wellFormed : Code → Bool
  | .phase c => phaseLegal c
  | .transfer bytes => transferWellFormed bytes

/-- Every term of `Instr` is well formed: "Every 48-bit value of the data field is legal" (30_encoding.md R73), and no
other row has an operand. -/
def Instr.wellFormed : Instr → Bool
  | .write _ _ _ _ _ _ => true
  | .load => true
  | .check => true
  | .ovlDp => true
  | .ovlBat => true
  | .packOpc => true
  | .packAdr => true
  | .packDat => true
  | .packPad => true
  | .emit => true
  | .init1 => true
  | .init2 => true

end Sys2Proof
end

