-- ==== Sys2Proof/Decode.lean ====
section
/-! DEFINITION. The decoder, total on any code, and the encoder, from spec/30_encoding.md R70 to R73 (frames), R78
(phase codes) and R84 (initialisation transfers). -/

namespace Sys2Proof

/-! ### The phase codes (30_encoding.md R78) -/

/-- IDLE -/
abbrev phaseIdle : BitVec 4 := 0
/-- CHECK -/
abbrev phaseCheck : BitVec 4 := 1
/-- OVL_DP -/
abbrev phaseOvlDp : BitVec 4 := 2
/-- OVL_BAT -/
abbrev phaseOvlBat : BitVec 4 := 3
/-- PACK_OPC -/
abbrev phasePackOpc : BitVec 4 := 4
/-- PACK_ADR -/
abbrev phasePackAdr : BitVec 4 := 5
/-- PACK_DAT -/
abbrev phasePackDat : BitVec 4 := 6
/-- PACK_PAD -/
abbrev phasePackPad : BitVec 4 := 7
/-- EMIT -/
abbrev phaseEmit : BitVec 4 := 8

/-- Why a code is refused. -/
inductive DecodeError where
  /-- `PHASE` codes 9 to 15 (30_encoding.md R82) -/
  | unusedPhase (c : BitVec 4)
  /-- eight bytes whose constant bits are not those of a frame (30_encoding.md R81) -/
  | notAFrame
  /-- two bytes that are not `INIT1` -/
  | notInit1
  /-- five bytes that are not `INIT2` -/
  | notInit2
  /-- a transfer of another length: the lengths in use are 2, 5 and 8 bytes (30_encoding.md R84) -/
  | badLength (n : Nat)
  deriving DecidableEq, Repr

/-! ### Frames -/

/-- The frame word of six bytes: opcode, address, `GB[0]` to `GB[5]`, padding, most significant first
(30_encoding.md R70, R71). -/
def frameOfGlyphs (g : GlyphBuffer) : FrameWord :=
  BitVec.cast rfl (Config.opc ++ Config.addr ++ g.g0 ++ g.g1 ++ g.g2 ++ g.g3 ++ g.g4 ++ g.g5 ++ Config.pad)

/-- The data field of a frame word: `GB[i] = F[54-8i : 47-8i]` (30_encoding.md R73). -/
def glyphsOfFrame (w : FrameWord) : GlyphBuffer :=
  ⟨w.extractLsb' 47 8, w.extractLsb' 39 8, w.extractLsb' 31 8,
   w.extractLsb' 23 8, w.extractLsb' 15 8, w.extractLsb' 7 8⟩

/-- The byte view of a 64-bit word: `FB[k] = FRAME[63-8k : 56-8k]`, `FB[0]` first (10_state.md R26,
20_memory.md R56). -/
def frameBytes (w : FrameWord) : List Byte :=
  [w.extractLsb' 56 8, w.extractLsb' 48 8, w.extractLsb' 40 8, w.extractLsb' 32 8,
   w.extractLsb' 24 8, w.extractLsb' 16 8, w.extractLsb' 8 8, w.extractLsb' 0 8]

/-- The operation WRITE of six glyph bytes. -/
def Instr.ofGlyphs (g : GlyphBuffer) : Instr := .write g.g0 g.g1 g.g2 g.g3 g.g4 g.g5

/-! ### Decoding -/

/-- The sequencer's decoder: it matches all four bits of `PHASE` (30_encoding.md R78). -/
def decodePhase (c : BitVec 4) : Except DecodeError Instr :=
  match c.toNat with
  | 0 => .ok .load
  | 1 => .ok .check
  | 2 => .ok .ovlDp
  | 3 => .ok .ovlBat
  | 4 => .ok .packOpc
  | 5 => .ok .packAdr
  | 6 => .ok .packDat
  | 7 => .ok .packPad
  | 8 => .ok .emit
  | _ => .error (.unusedPhase c)

/-- A 64-bit word read as a frame (30_encoding.md R73). -/
def decodeFrame (w : FrameWord) : Except DecodeError Instr :=
  if frameWellFormed w then .ok (Instr.ofGlyphs (glyphsOfFrame w)) else .error .notAFrame

/-- The bytes of one transfer, told apart by their length (30_encoding.md R84). -/
def decodeTransfer (bytes : List Byte) : Except DecodeError Instr :=
  match bytes with
  | [b0, b1] => if [b0, b1] = Config.init1Bytes then .ok .init1 else .error .notInit1
  | [b0, b1, b2, b3, b4] => if [b0, b1, b2, b3, b4] = Config.init2Bytes then .ok .init2 else .error .notInit2
  | [b0, b1, b2, b3, b4, b5, b6, b7] => decodeFrame (wordOfBytes b0 b1 b2 b3 b4 b5 b6 b7)
  | bs => .error (.badLength bs.length)

/-- The decoder. -/
def decode : Code → Except DecodeError Instr
  | .phase c => decodePhase c
  | .transfer bytes => decodeTransfer bytes

/-! ### Encoding -/

/-- The code of each operation: its `PHASE` value (30_encoding.md R78), or the bytes of its transfer (R70, R84). -/
def encode : Instr → Code
  | .write g0 g1 g2 g3 g4 g5 => .transfer (frameBytes (frameOfGlyphs ⟨g0, g1, g2, g3, g4, g5⟩))
  | .load => .phase phaseIdle
  | .check => .phase phaseCheck
  | .ovlDp => .phase phaseOvlDp
  | .ovlBat => .phase phaseOvlBat
  | .packOpc => .phase phasePackOpc
  | .packAdr => .phase phasePackAdr
  | .packDat => .phase phasePackDat
  | .packPad => .phase phasePackPad
  | .emit => .phase phaseEmit
  | .init1 => .transfer Config.init1Bytes
  | .init2 => .transfer Config.init2Bytes

/-! ### The opcode table's numbering -/

/-- The `n` low bytes of a number, the most significant of them first: the first byte on the wire holds the highest
bits of the table's word (spec/opcode_table.json; 30_encoding.md R84; DEDUCED, assumption log 19). -/
def bytesOfNat : Nat → Nat → List Byte
  | 0, _ => []
  | n + 1, w => BitVec.ofNat 8 (w / 256 ^ n) :: bytesOfNat n w

/-- The number a list of bytes spells, first byte most significant. -/
def natOfBytes (bytes : List Byte) : Nat := bytes.foldl (fun acc b => acc * 256 + b.toNat) 0

/-- A row's bits as a code: a row of one byte or less is a `PHASE` code in the low four bits, a longer row is a transfer
(assumption log 19). -/
def codeOfTableWord (nbits w : Nat) : Code :=
  if nbits ≤ 8 ∧ w < 16 then .phase (BitVec.ofNat 4 w) else .transfer (bytesOfNat ((nbits + 7) / 8) w)

/-- The operation this decoder reads from the bits `w` of a row of `nbits` bits. -/
def decodeTableWord (nbits w : Nat) : Option Instr :=
  match decode (codeOfTableWord nbits w) with
  | .ok i => some i
  | .error _ => none

/-- The number the opcode table gives an operation's bits. -/
def tableWord (i : Instr) : Nat :=
  match encode i with
  | .phase c => c.toNat
  | .transfer bytes => natOfBytes bytes

end Sys2Proof
end

