-- ==== Sys2Proof/Machine/State.lean ====
section
/-! DEFINITION. The state of the machine as plain data: the block's registers (spec/10_state.md R20), its input ports (R35,
spec/70_reset_and_hazards.md R230), the transport with the bus it drives (spec/43_transport_downstream.md), and the host that
calls them (spec/44_show_request.md R185). -/

namespace Sys2Proof.Machine

/-- The two error kinds; there is no third (60_exceptions.md R200). -/
inductive ErrorKind where
  /-- raised by CHECK -/
  | invalidArgument
  /-- signalled by the transport, passed on by the host -/
  | transportFailure
  deriving DecidableEq, Repr

/-- The registers of the block (10_state.md R20). `loaded` and `framed` record which registers hold a value since
reset (R39, R40; assumption log 2). -/
structure Block where
  /-- `GB[0]` to `GB[5]` (R21) -/
  gb : GlyphBuffer
  /-- `DP`, the `decimal_point` selector (R23) -/
  dp : Sel
  /-- `BL`, the `battery_level` selector (R23) -/
  bl : Sel
  /-- `ACC` (R24) -/
  acc : BitVec 64
  /-- `NB`, the number of bits appended since LOAD (R25) -/
  nb : BitVec 7
  /-- `FRAME` (R26) -/
  frame : FrameWord
  /-- `PHASE`, the micro-operation of the next step (R28) -/
  phase : BitVec 4
  /-- `IDX`, the glyph index of PACK.DAT (R28) -/
  idx : BitVec 3
  /-- `DONE` (R29) -/
  done : Bool
  /-- `ERR` (R30) -/
  err : Bool
  /-- `ECODE` (R30) -/
  ecode : BitVec 2
  /-- `GB`, `DP`, `BL`, `ACC` and `NB` hold a value: a LOAD has run since reset -/
  loaded : Bool
  /-- `FRAME` holds a value: an EMIT of a loaded request has run since reset -/
  framed : Bool
  deriving DecidableEq, Repr

/-- The input ports, levels the host drives: `rst` (70_reset_and_hazards.md R230) and the request port
(10_state.md R35). -/
structure Ports where
  rst : Bool
  reqValid : Bool
  gbIn : GlyphBuffer
  dpIn : Sel
  blIn : Sel
  deriving DecidableEq, Repr

/-- A transfer the transport has clocked out: its bytes, first sent first, and whether the transport reported a failure
of it. What of a failed transfer reached the chip is not known (91_not_in_source.md N22). -/
structure Transfer where
  bytes : List Byte
  failed : Bool
  deriving DecidableEq, Repr

/-- The transport's report on the transfer in hand (43_transport_downstream.md R174). -/
inductive BusReport where
  | none
  | completed
  | failed
  deriving DecidableEq, Repr

/-- The transport's three operations, as the host calls them (43_transport_downstream.md R170, 30_encoding.md R85). A
transmission takes its frame by value (70_reset_and_hazards.md R243), and any 64 bits can be given to it. -/
inductive TransportCall where
  /-- `reset()` (R171) -/
  | resetChip
  /-- `initialize(config)`, with the one configuration the spec gives (R172; assumption log 13) -/
  | initChip
  /-- `transmit(frame: 8 bytes)` (R173) -/
  | transmit (frame : FrameWord)
  deriving DecidableEq, Repr

/-- The transport: the operation it was called for and has not yet done (one at a time, R177), the transfers made so far
(oldest first), and its report. -/
structure Bus where
  outbox : Option TransportCall
  wire : List Transfer
  report : BusReport
  deriving DecidableEq, Repr

/-- A call the host still makes. -/
inductive HostOp where
  /-- assert `rst` (70_reset_and_hazards.md R230) -/
  | blockReset
  /-- the transport's `reset()` (43_transport_downstream.md R171) -/
  | transportReset
  /-- the transport's `initialize(config)`, with the one configuration the spec gives (R172; assumption log 13) -/
  | initChip
  /-- `REQ [b0..b5] dp= bl=`: a bare request, whose selectors may be omitted (30_encoding.md R86) -/
  | request (gb : GlyphBuffer) (dp bl : Option Sel)
  /-- `show(text, dp, bl)` (44_show_request.md R185), whose selectors may be omitted or "none" (30_encoding.md R76) -/
  | showText (text : List Char) (dp bl : Option Int)
  /-- `transmit` of what `frame_out` shows (43_transport_downstream.md R173, 70_reset_and_hazards.md R242) -/
  | transmit
  deriving DecidableEq, Repr

/-- What the host does with the outcome of the request in progress. -/
inductive AfterRequest where
  /-- only note the outcome (a bare request) -/
  | note
  /-- hand a finished frame to the transport (`show`) -/
  | transmit
  deriving DecidableEq, Repr

/-- Where the host's call in progress stands. -/
inductive Call where
  /-- no call in progress -/
  | idle
  /-- a request stands on the request port -/
  | presented (after : AfterRequest)
  /-- the block works on the request -/
  | awaiting (after : AfterRequest)
  /-- a transfer is with the transport -/
  | sending
  deriving DecidableEq, Repr

/-- The outcome of a call. -/
inductive HostResult where
  /-- the call has done its work -/
  | ok
  /-- a bare request ended with this frame on the result port -/
  | frame (w : FrameWord)
  /-- the call failed with this error -/
  | failed (e : ErrorKind)
  deriving DecidableEq, Repr

/-- The host: the calls it still makes, the call in progress, and the outcomes of its calls (oldest first). -/
structure Caller where
  todo : List HostOp
  call : Call
  results : List HostResult
  deriving DecidableEq, Repr

/-- The whole state. -/
structure State where
  block : Block
  ports : Ports
  bus : Bus
  caller : Caller
  deriving DecidableEq, Repr

/-- Faults. -/
inductive Fault where
  /-- raised by OVL.DP when `DP` is not one of -1, 0, 1, 2: no rule defines the access (20_memory.md R51, 41_overlay.md
  R122 "now known to be in"). Safe: the machine stops; CHECK makes it unreachable (assumption log 7). -/
  | uncheckedSelector
  deriving DecidableEq, Repr

/-- Refusals. -/
inductive Refusal where
  /-- an arm of `exec` that has no meaning yet; no arm answers so. Safe. -/
  | notModelled (mnemonic : String)
  /-- raised by the step in a state whose `PHASE` is 9 to 15 (30_encoding.md R82). Safe. -/
  | unusedPhase (c : BitVec 4)
  /-- raised by the step, and by PACK.DAT, in a state whose `IDX` is 6 or 7 (30_encoding.md R82). Safe. -/
  | unusedIdx (c : BitVec 3)
  /-- raised by the step in a state whose `ECODE` is 3 (30_encoding.md R82). Safe. -/
  | unusedEcode
  deriving DecidableEq, Repr

/-- The block's registers after reset: the control registers as 10_state.md R39 gives them; the registers for which it gives "no
value" hold 0 and are marked as holding none (DESIGN CHOICE, unsafe; assumption log 1). -/
def Block.reset : Block where
  gb := .blank
  dp := 0
  bl := 0
  acc := 0
  nb := 0
  frame := 0
  phase := phaseIdle
  idx := 0
  done := false
  err := false
  ecode := 0
  loaded := false
  framed := false

/-- The machine right after reset: the block as R39 says, no request presented, nothing on the bus, no call to make
(DESIGN CHOICE for the fields outside the block; assumption log 14). -/
def State.reset : State where
  block := .reset
  ports := { rst := false, reqValid := false, gbIn := .blank, dpIn := 0, blIn := 0 }
  bus := { outbox := none, wire := [], report := .none }
  caller := { todo := [], call := .idle, results := [] }

end Sys2Proof.Machine
end

