-- ==== Sys2Proof/Machine/Operands.lean ====
section
/-! DEFINITION. The operand forms: glyph registers by index, selectors as signed integers, the glyph index of PACK.DAT
(spec/20_memory.md R51, spec/30_encoding.md R74, R75). -/

namespace Sys2Proof

/-- `b[i]` (10_state.md R21). -/
def GlyphBuffer.get (b : GlyphBuffer) (i : Fin 6) : Byte :=
  match i with
  | 0 => b.g0
  | 1 => b.g1
  | 2 => b.g2
  | 3 => b.g3
  | 4 => b.g4
  | 5 => b.g5

/-- `b[i] <- v`. -/
def GlyphBuffer.set (b : GlyphBuffer) (i : Fin 6) (v : Byte) : GlyphBuffer :=
  match i with
  | 0 => { b with g0 := v }
  | 1 => { b with g1 := v }
  | 2 => { b with g2 := v }
  | 3 => { b with g3 := v }
  | 4 => { b with g4 := v }
  | 5 => { b with g5 := v }

/-- The bytes in buffer order, index 0 first. -/
def GlyphBuffer.toList (b : GlyphBuffer) : List Byte := [b.g0, b.g1, b.g2, b.g3, b.g4, b.g5]

/-- Bytewise OR. -/
def GlyphBuffer.or (a b : GlyphBuffer) : GlyphBuffer :=
  ⟨a.g0 ||| b.g0, a.g1 ||| b.g1, a.g2 ||| b.g2, a.g3 ||| b.g3, a.g4 ||| b.g4, a.g5 ||| b.g5⟩

/-- The buffer with the indicator bit of byte `i` set, all other bits as they are (41_overlay.md R122, R126). -/
def GlyphBuffer.light (b : GlyphBuffer) (i : Fin 6) : GlyphBuffer := b.set i (b.get i ||| Config.indMask)

end Sys2Proof

namespace Sys2Proof.Machine

/-- The legal selector values, `DP_SET` and `BL_SET` (00_scope.md R8, 41_overlay.md R121). -/
def legalSelector (n : Int) : Bool := n == -1 || n == 0 || n == 1 || n == 2

/-- The glyph register a checked `decimal_point` other than -1 names: 0, 1 or 2 (41_overlay.md R122). -/
def dpIndex (dp : Sel) : Option (Fin 6) :=
  if dp.toInt = 0 then some 0 else if dp.toInt = 1 then some 1 else if dp.toInt = 2 then some 2 else none

/-- The glyph register `IDX` names; 6 and 7 name none (30_encoding.md R82). -/
def glyphIndex (idx : BitVec 3) : Option (Fin 6) :=
  if h : idx.toNat < 6 then some ⟨idx.toNat, h⟩ else none

/-- A selector value on its 8-bit port (30_encoding.md R75). -/
def selOfInt (n : Int) : Sel := BitVec.ofInt 8 n

/-- A selector argument of `show`: "none", and an argument left out, is the integer -1 (30_encoding.md R76). -/
def selectorArg (o : Option Int) : Int := o.getD (-1)

/-- A selector of a bare request: "an omitted selector is -1" (30_encoding.md R86). -/
def portSelector (o : Option Sel) : Sel := o.getD (selOfInt (-1))

end Sys2Proof.Machine
end

