-- ==== Sys2Proof/Machine/Flags.lean ====
section
/-! DEFINITION. The error codes, the status view and the output ports (spec/10_state.md R30, R31, R35 to R37). -/

namespace Sys2Proof.Machine

/-- `ECODE` of an error kind (60_exceptions.md R200); 0 stands for no error. -/
def ErrorKind.code : ErrorKind → BitVec 2
  | .invalidArgument => 1
  | .transportFailure => 2

/-- The code a host-level wrapper reports for an outcome, both error kinds in one field (60_exceptions.md R204). -/
def HostResult.code : HostResult → BitVec 2
  | .ok => 0
  | .frame _ => 0
  | .failed e => e.code

/-- `BUSY`: `PHASE` is not IDLE (10_state.md R31). -/
def Block.busy (b : Block) : Bool := b.phase != phaseIdle

/-- `req_ready` (10_state.md R35). -/
def Block.reqReady (b : Block) : Bool := b.phase == phaseIdle

/-- `STATUS = {ECODE[1:0], ERR, DONE, BUSY}` (10_state.md R31). -/
def Block.status (b : Block) : BitVec 5 :=
  b.ecode ++ BitVec.ofBool b.err ++ BitVec.ofBool b.done ++ BitVec.ofBool b.busy

/-- What the host reads on `frame_out`: `FRAME` (10_state.md R36), or a free value, by the number of transfers made so
far, while `FRAME` holds no value (93_implementation_defined.md U10; assumption log 3). -/
def State.frameOut (s : State) : FrameWord :=
  if s.block.framed then s.block.frame else Config.unwrittenFrame s.bus.wire.length

/-- What the host reads on `gb_out[i]`: `GB[i]` (10_state.md R37), or a free value while it holds none
(93_implementation_defined.md U10; assumption log 3). -/
def Block.gbOut (b : Block) (i : Fin 6) : Byte :=
  if b.loaded then b.gb.get i else Config.unwrittenGlyph i.val

/-- The result port has a valid frame: `frame_out` is the current request's frame only while `done = 1`
(70_reset_and_hazards.md R242). -/
def Block.frameValid (b : Block) : Bool := b.done

end Sys2Proof.Machine
end

