-- ==== Sys2Proof/Machine/Ops.lean ====
section
/-! DEFINITION. The shared operations over registers, the error entry, the reset of the block and the clocking out of a transfer.
The block has no memory and no rule uses `MemRead` or `MemWrite` (spec/20_memory.md R50). -/

namespace Sys2Proof.Machine

/-! ### Append (42_frame_builder.md R140) -/

/-- Bit-serial form: shift left by 1 and set the low bit to source bit `j`, for `j` from `n-1` down to 0. -/
def appendBits {w : Nat} (acc : BitVec 64) (v : BitVec w) : Nat → BitVec 64
  | 0 => acc
  | j + 1 => appendBits ((acc <<< 1) ||| (BitVec.ofBool (v.getLsbD j)).setWidth 64) v j

/-- `Append(acc, w, v)`: the field's `w` bits enter at the bottom, most significant first. -/
def append {w : Nat} (acc : BitVec 64) (v : BitVec w) : BitVec 64 := appendBits acc v w

/-- The source's unbounded accumulator, the same bit-serial form over natural numbers (42_frame_builder.md R157). -/
def appendBitsNat {w : Nat} (acc : Nat) (v : BitVec w) : Nat → Nat
  | 0 => acc
  | j + 1 => appendBitsNat (2 * acc + (v.getLsbD j).toNat) v j

/-- `Append` over the unbounded accumulator. -/
def appendNat {w : Nat} (acc : Nat) (v : BitVec w) : Nat := appendBitsNat acc v w

/-! ### Updates of the block's registers -/

/-- The control transfer `PHASE <- p`. -/
def Block.toPhase (b : Block) (p : BitVec 4) : Block := { b with phase := p }

/-- LOAD's writes: the request port is sampled whole, the working registers and the flags are cleared
(41_overlay.md R120). `FRAME` stays. -/
def Block.accept (b : Block) (p : Ports) : Block :=
  { b with
    gb := p.gbIn, dp := p.dpIn, bl := p.blIn, acc := 0, nb := 0, idx := 0,
    done := false, err := false, ecode := 0, phase := phaseCheck, loaded := true }

/-- `raise`: the one error entry of the block. It sets `ERR` and `ECODE`, returns to IDLE, and does nothing else: there is no
handler and no saved state (60_exceptions.md R203). -/
def Block.raise (b : Block) (e : ErrorKind) : Block :=
  { b with err := true, ecode := e.code, phase := phaseIdle }

/-- `GB[i] <- GB[i] | 0x80`. -/
def Block.light (b : Block) (i : Fin 6) : Block := { b with gb := b.gb.light i }

/-- One field of the frame: `ACC <- Append(ACC, w, v)`, `NB <- NB + w` (42_frame_builder.md R141 to R144). -/
def Block.pack {w : Nat} (b : Block) (v : BitVec w) : Block :=
  { b with acc := append b.acc v, nb := b.nb + BitVec.ofNat 7 w }

/-- `IDX <- i`. -/
def Block.setIdx (b : Block) (i : BitVec 3) : Block := { b with idx := i }

/-- EMIT's writes: `FRAME <- ACC`, `DONE <- 1` (42_frame_builder.md R145). `FRAME` then holds a value if `ACC` did. -/
def Block.present (b : Block) : Block := { b with frame := b.acc, done := true, framed := b.loaded }

/-! ### The state -/

/-- A step of the block: its registers change, everything outside it stays. -/
def State.withBlock (s : State) (b : Block) : State := { s with block := b }

/-- The block's reset: its registers take their reset values whatever they were, and the input is released
(70_reset_and_hazards.md R230, R231; assumption log 6). -/
def State.resetBlock (s : State) : State :=
  { s with block := Block.reset, ports := { s.ports with rst := false } }

/-- The transport clocks out one transfer and reports how it ended; the block is not involved
(43_transport_downstream.md R171 to R174). Whether it fails is a free value (assumption log 10). -/
def State.clockOut (s : State) (bytes : List Byte) : State :=
  { s with
    bus := { s.bus with
      wire := s.bus.wire ++ [{ bytes := bytes, failed := Config.transferFails s.bus.wire.length }]
      report := if Config.transferFails s.bus.wire.length then .failed else .completed } }

/-- The bytes an operation of the transport sends, first byte first: the two constant transfers (R171, R172), and for
`transmit` all eight bytes of whatever it was given (R173, 70_reset_and_hazards.md R244). -/
def TransportCall.bytes : TransportCall → List Byte
  | .resetChip => Config.init1Bytes
  | .initChip => Config.init2Bytes
  | .transmit w => frameBytes w

/-- The operation of the transport that sends these bytes, if one does. -/
def TransportCall.ofBytes (bytes : List Byte) : Option TransportCall :=
  match bytes with
  | [b0, b1, b2, b3, b4, b5, b6, b7] => some (.transmit (wordOfBytes b0 b1 b2 b3 b4 b5 b6 b7))
  | bs =>
    if bs = Config.init1Bytes then some .resetChip
    else if bs = Config.init2Bytes then some .initChip
    else none

/-- The transport takes up the operation it was called for. -/
def State.takeOutbox (s : State) : State := { s with bus := { s.bus with outbox := none } }

/-- The host calls one operation of the transport and waits for the report (43_transport_downstream.md R177). -/
def State.handOver (s : State) (call : TransportCall) : State :=
  { s with
    bus := { s.bus with outbox := some call, report := .none }
    caller := { s.caller with call := .sending } }

/-- The bits of a transfer in the order they leave: the first byte first, each byte from bit 7 to bit 0
(20_memory.md R57). -/
def wireBits (bytes : List Byte) : List Bool :=
  bytes.flatMap fun b => [b.getLsbD 7, b.getLsbD 6, b.getLsbD 5, b.getLsbD 4,
    b.getLsbD 3, b.getLsbD 2, b.getLsbD 1, b.getLsbD 0]

/-! ### What the host drives -/

/-- The levels a host may put on the block's inputs between two steps (10_state.md R35). -/
structure Inputs where
  reqValid : Bool
  gbIn : GlyphBuffer
  dpIn : Sel
  blIn : Sel
  deriving DecidableEq, Repr

/-- New levels on the request port. -/
def State.drive (s : State) (i : Inputs) : State :=
  { s with ports := { s.ports with reqValid := i.reqValid, gbIn := i.gbIn, dpIn := i.dpIn, blIn := i.blIn } }

/-- A new level on `rst`. -/
def State.driveRst (s : State) (level : Bool) : State := { s with ports := { s.ports with rst := level } }

/-- One more call for the host to make. -/
def State.enqueue (s : State) (op : HostOp) : State :=
  { s with caller := { s.caller with todo := s.caller.todo ++ [op] } }

/-- The host transmits what `frame_out` shows at this very moment, in the middle of a request too: "a host that transmits it
sends a stale frame" (70_reset_and_hazards.md R242, 60_exceptions.md R211 (d)). It does so only while no call of its own is in
progress and the transport is free (R177; assumption log 15). -/
def State.transmitNow (s : State) : State :=
  if s.bus.outbox = none ∧ s.caller.call = .idle then s.handOver (.transmit s.frameOut) else s

/-- The code of an operation, placed where the next step looks for it: a `PHASE` code in `PHASE` (with `req_valid` for
LOAD), a transfer as the transport's operation that sends it. `rst` is released and the host has no call in progress, so that no other agent moves first
(assumption log 8). -/
def State.placeCode (s : State) (c : Code) : State :=
  match c with
  | .phase p =>
    { s with
      block := { s.block with phase := p }
      ports := { s.ports with rst := false, reqValid := s.ports.reqValid || p == phaseIdle }
      bus := { s.bus with outbox := none }
      caller := { s.caller with call := .idle } }
  | .transfer bytes =>
    { s with
      ports := { s.ports with rst := false }
      bus := { s.bus with outbox := TransportCall.ofBytes bytes } }

end Sys2Proof.Machine
end

