-- ==== Sys2Proof/Machine/FrameBuilder.lean ====
section
/-! DEFINITION. The frame builder: PACK.OPC, PACK.ADR, PACK.DAT, PACK.PAD, EMIT (spec/42_frame_builder.md). -/

namespace Sys2Proof.Machine

/-- PACK.OPC (R141). -/
def execPackOpc (s : State) : Host.Outcome State Fault Refusal :=
  .next (s.withBlock ((s.block.pack Config.opc).toPhase phasePackAdr))

/-- PACK.ADR (R142). -/
def execPackAdr (s : State) : Host.Outcome State Fault Refusal :=
  .next (s.withBlock (((s.block.pack Config.addr).setIdx 0).toPhase phasePackDat))

/-- PACK.DAT (R143): appends `GB[IDX]`; the sixth pass leaves the loop. -/
def execPackDat (s : State) : Host.Outcome State Fault Refusal :=
  match glyphIndex s.block.idx with
  | none => .refused (.unusedIdx s.block.idx)
  | some i =>
    let b := s.block.pack (s.block.gb.get i)
    .next (s.withBlock
      (if s.block.idx = 5 then (b.setIdx 0).toPhase phasePackPad
       else (b.setIdx (s.block.idx + 1)).toPhase phasePackDat))

/-- PACK.PAD (R144). -/
def execPackPad (s : State) : Host.Outcome State Fault Refusal :=
  .next (s.withBlock ((s.block.pack Config.pad).toPhase phaseEmit))

/-- EMIT (R145), enabled "always" in its phase (44_show_request.md R186; assumption log 7). -/
def execEmit (s : State) : Host.Outcome State Fault Refusal :=
  .next (s.withBlock (s.block.present.toPhase phaseIdle))

end Sys2Proof.Machine
end

