-- ==== Sys2Proof/Machine/Overlay.lean ====
section
/-! DEFINITION. The overlay engine: LOAD, CHECK, OVL.DP, OVL.BAT (spec/41_overlay.md). -/

namespace Sys2Proof.Machine

/-- LOAD (R120): accepts the request on the port; with `req_valid = 0` the block "stays in IDLE and changes nothing". -/
def execLoad (s : State) : Host.Outcome State Fault Refusal :=
  .next (if s.ports.reqValid then s.withBlock (s.block.accept s.ports) else s)

/-- CHECK (R121): passes when both selectors are in {-1, 0, 1, 2}, raises `InvalidArgument` otherwise. -/
def execCheck (s : State) : Host.Outcome State Fault Refusal :=
  .next (s.withBlock
    (if legalSelector s.block.dp.toInt && legalSelector s.block.bl.toInt then s.block.toPhase phaseOvlDp
     else s.block.raise .invalidArgument))

/-- OVL.DP (R122): `GB[DP] |= 0x80` unless `DP` is -1. A `DP` that CHECK would not pass names no register of this
operation. -/
def execOvlDp (s : State) : Host.Outcome State Fault Refusal :=
  if s.block.dp.toInt = -1 then .next (s.withBlock (s.block.toPhase phaseOvlBat))
  else
    match dpIndex s.block.dp with
    | some p => .next (s.withBlock ((s.block.light p).toPhase phaseOvlBat))
    | none => .fault .uncheckedSelector

/-- The battery marks of a level: index 3 unless -1, index 4 from level 1, index 5 at level 2 (R123). -/
def Block.lightBattery (b : Block) (level : Int) : Block :=
  if level = -1 then b
  else
    let b3 := b.light 3
    let b4 := if level ≥ 1 then b3.light 4 else b3
    if level = 2 then b4.light 5 else b4

/-- OVL.BAT (R123). -/
def execOvlBat (s : State) : Host.Outcome State Fault Refusal :=
  .next (s.withBlock ((s.block.lightBattery s.block.bl.toInt).toPhase phasePackOpc))

end Sys2Proof.Machine
end

