-- ==== Sys2Proof/Machine/Transfers.lean ====
section
/-! DEFINITION. The three operations that the serial bus carries: a frame (WRITE) and the two initialisation transfers
(spec/43_transport_downstream.md R171 to R173; assumption log 9). -/

namespace Sys2Proof.Machine

/-- WRITE: `transmit` of this frame, eight bytes, `FB[0]` first (R173, 30_encoding.md R70). No register of the block changes. -/
def execWrite (g0 g1 g2 g3 g4 g5 : Byte) (s : State) : Host.Outcome State Fault Refusal :=
  .next (s.clockOut (frameBytes (frameOfGlyphs ⟨g0, g1, g2, g3, g4, g5⟩)))

/-- INIT1: the transport's `reset()` (R171). -/
def execInit1 (s : State) : Host.Outcome State Fault Refusal := .next (s.clockOut Config.init1Bytes)

/-- INIT2: the transport's `initialize(config)` (R172). -/
def execInit2 (s : State) : Host.Outcome State Fault Refusal := .next (s.clockOut Config.init2Bytes)

end Sys2Proof.Machine
end

