-- ==== Sys2Proof/Machine/Dispatch.lean ====
section
/-! DEFINITION. One arm per row of spec/opcode_table.json. -/

namespace Sys2Proof.Machine

def exec (i : Instr) (s : State) : Host.Outcome State Fault Refusal :=
  match i with
  | .write g0 g1 g2 g3 g4 g5 => Sys2Proof.Machine.execWrite g0 g1 g2 g3 g4 g5 s
  | .load => Sys2Proof.Machine.execLoad s
  | .check => Sys2Proof.Machine.execCheck s
  | .ovlDp => Sys2Proof.Machine.execOvlDp s
  | .ovlBat => Sys2Proof.Machine.execOvlBat s
  | .packOpc => Sys2Proof.Machine.execPackOpc s
  | .packAdr => Sys2Proof.Machine.execPackAdr s
  | .packDat => Sys2Proof.Machine.execPackDat s
  | .packPad => Sys2Proof.Machine.execPackPad s
  | .emit => Sys2Proof.Machine.execEmit s
  | .init1 => Sys2Proof.Machine.execInit1 s
  | .init2 => Sys2Proof.Machine.execInit2 s

end Sys2Proof.Machine
end

