-- ==== Sys2Proof/Machine/Encoder.lean ====
section
/-! DEFINITION. The Digit Encoder, host side (spec/40_digit_encoder_upstream.md R100 to R107), over the parameters of
spec/00_scope.md R10. -/

namespace Sys2Proof.Machine

/-- The dot muncher: a dot directly after a character other than a dot is folded into that character's glyph (R103, R104,
`fold` of R107). -/
def foldDots (glyph : Char → Byte) (dotMask : Byte) : List Char → List Byte
  | [] => []
  | [c] => [glyph c]
  | c :: d :: rest =>
    if c ≠ Config.dotChar ∧ d = Config.dotChar then (glyph c ||| dotMask) :: foldDots glyph dotMask rest
    else glyph c :: foldDots glyph dotMask (d :: rest)

/-- The byte at index `i` when the glyphs `q` (at most six) stand right-aligned: `buf[6-n+j] = q[j]`, and zero before
(R105). -/
def alignedByte (q : List Byte) (i : Nat) : Byte :=
  if i + q.length < 6 then 0 else (q[i + q.length - 6]?).getD 0

/-- Right-aligned placement (R105). -/
def placeRight (q : List Byte) : GlyphBuffer :=
  ⟨alignedByte q 0, alignedByte q 1, alignedByte q 2, alignedByte q 3, alignedByte q 4, alignedByte q 5⟩

/-- `encode(text)` over its parameters (R107). -/
def encodeWith (glyph : Char → Byte) (dotMask : Byte) (mode : Config.TruncMode) (text : List Char) : GlyphBuffer :=
  let q := foldDots glyph dotMask text
  if q.length > 6 then
    match mode with
    | .input6 => placeRight (foldDots glyph dotMask (text.take 6))
    | .glyph6 => placeRight (q.take 6)
  else placeRight q

/-- `encode(text)` with the environment's glyph table and the spec's defaults (R10, R102). -/
def encodeText (text : List Char) : GlyphBuffer :=
  encodeWith Config.glyph Config.dotMask Config.truncMode text

end Sys2Proof.Machine
end

