-- ==== Sys2Proof/Machine/HostSide.lean ====
section
/-! DEFINITION. The host's moves: one caller that presents one request at a time, waits for its outcome, and hands finished frames to
the transport (spec/44_show_request.md R185, spec/43_transport_downstream.md R170 to R174, R179, spec/70_reset_and_hazards.md
R240 to R243; assumption log 15). -/

namespace Sys2Proof.Machine

/-- The call in progress ends with an outcome. -/
def State.finish (s : State) (r : HostResult) : State :=
  { s with caller := { s.caller with call := .idle, results := s.caller.results ++ [r] } }

/-- The host puts a request on the port and holds it there until it is accepted (R179, R241). -/
def State.putRequest (s : State) (gb : GlyphBuffer) (dp bl : Sel) (after : AfterRequest) : State :=
  { s with
    ports := { s.ports with reqValid := true, gbIn := gb, dpIn := dp, blIn := bl }
    caller := { s.caller with call := .presented after } }

/-- The first move of a call. `show` checks its selectors before any encoding work (R185). The transport's `reset()` and
`initialize(config)` may be called at any time, in any order and more than once, and each call is clocked out like the first
(DESIGN CHOICE, assumption log 20: the spec leaves resending open, 70_reset_and_hazards.md R245, 91_not_in_source.md N5). -/
def State.startCall (s : State) (op : HostOp) : State :=
  match op with
  | .blockReset => (s.driveRst true).finish .ok
  | .transportReset => s.handOver .resetChip
  | .initChip => s.handOver .initChip
  | .request gb dp bl => s.putRequest gb (portSelector dp) (portSelector bl) .note
  | .showText text dp bl =>
    if legalSelector (selectorArg dp) && legalSelector (selectorArg bl) then
      s.putRequest (encodeText text) (selOfInt (selectorArg dp)) (selOfInt (selectorArg bl)) .transmit
    else s.finish (.failed .invalidArgument)
  | .transmit => s.handOver (.transmit s.frameOut)

/-- The request was accepted: the host withdraws it and waits (10_state.md R35). -/
def State.withdraw (s : State) (after : AfterRequest) : State :=
  { s with
    ports := { s.ports with reqValid := false }
    caller := { s.caller with call := .awaiting after } }

/-- The block is idle again and the host reads the result port (10_state.md R36). Neither `done` nor `err` means that a reset
abandoned the request: the host presents it again (70_reset_and_hazards.md R231). -/
def State.readResult (s : State) (after : AfterRequest) : State :=
  if s.block.done then
    match after with
    | .note => s.finish (.frame s.frameOut)
    | .transmit => s.handOver (.transmit s.frameOut)
  else if s.block.err then s.finish (.failed .invalidArgument)
  else s.putRequest s.ports.gbIn s.ports.dpIn s.ports.blIn after

/-- The host's move, if it has one. A call starts only while the block is ready and no request stands on the port. -/
def State.hostMove (s : State) : Option State :=
  match s.caller.call with
  | .idle =>
    match s.caller.todo with
    | [] => none
    | op :: rest =>
      if s.block.reqReady && !s.ports.reqValid then
        some ({ s with caller := { s.caller with todo := rest } }.startCall op)
      else none
  | .presented after => if s.block.busy then some (s.withdraw after) else none
  | .awaiting after => if s.block.busy then none else some (s.readResult after)
  | .sending =>
    match s.bus.report with
    | .none => none
    | .completed => some (s.finish .ok)
    | .failed => some (s.finish (.failed .transportFailure))

end Sys2Proof.Machine
end

