-- ==== Sys2Proof/Machine/Turn.lean ====
section
/-! DEFINITION. Who moves next: the block's reset, the transport, the host or the sequencer (spec/44_show_request.md R186,
spec/70_reset_and_hazards.md R231; assumption log 5). -/

namespace Sys2Proof.Machine

/-- The next move. -/
inductive Turn where
  /-- `rst` is asserted -/
  | reset
  /-- the state holds an unused code -/
  | refuse (r : Refusal)
  /-- this operation runs, from this state -/
  | run (i : Instr) (start : State)
  /-- the transport clocks out these bytes, which are no row of the opcode table, from this state -/
  | send (bytes : List Byte) (start : State)
  /-- the host moves -/
  | host (after : State)
  deriving DecidableEq, Repr

/-- The unused code a block state holds, if any (30_encoding.md R82, 60_exceptions.md R211). -/
def Block.unusedCode (b : Block) : Option Refusal :=
  if !phaseLegal b.phase then some (.unusedPhase b.phase)
  else if !idxLegal b.idx then some (.unusedIdx b.idx)
  else if !ecodeLegal b.ecode then some .unusedEcode
  else none

/-- The next move: `rst` wins over everything; then the operation the transport was called for; then the host, where it has a
move; then the sequencer, whose micro-operation `PHASE` names. The transport does not judge what it is given: eight bytes that
are no frame of this block are clocked out like any other (43_transport_downstream.md R173; assumption log 12). -/
def State.turn (s : State) : Turn :=
  if s.ports.rst then .reset
  else
    match s.block.unusedCode with
    | some r => .refuse r
    | none =>
      match s.bus.outbox with
      | some call =>
        match decodeTransfer call.bytes with
        | .ok i => .run i s.takeOutbox
        | .error _ => .send call.bytes s.takeOutbox
      | none =>
        match s.hostMove with
        | some t => .host t
        | none =>
          match decodePhase s.block.phase with
          | .ok i => .run i s
          | .error _ => .refuse (.unusedPhase s.block.phase)

end Sys2Proof.Machine
end

