-- ==== Sys2Proof/Machine/Step.lean ====
section
/-! DEFINITION. One step: the move of the agent whose turn it is (spec/00_scope.md R13, spec/44_show_request.md R186). -/

namespace Sys2Proof.Machine

/-- One step. In IDLE with nothing presented and nothing for the host to do, the step leaves the state as it is: the block's
one hold (44_show_request.md R191). -/
def step (s : State) : Host.Outcome State Fault Refusal :=
  match s.turn with
  | .reset => .next s.resetBlock
  | .refuse r => .refused r
  | .run i t => exec i t
  | .send bytes t => .next (t.clockOut bytes)
  | .host t => .next t

/-- `s` with a row's bits where the next step looks for its operation (assumption log 8). -/
def State.withFetchWord (s : State) (nbits w : Nat) : State := s.placeCode (codeOfTableWord nbits w)

end Sys2Proof.Machine
end

