-- ==== Sys2Proof/Machine/Contract.lean ====
section
/-! DEFINITION. The source's contracts as pure functions, to which the sequencer is compared: `applyIndicators`
(spec/41_overlay.md R124), `buildFrame` (spec/42_frame_builder.md R146) and `Req` (spec/44_show_request.md R188). The selectors are
integers, so no width limits them (spec/92_eei_decisions.md D3). -/

namespace Sys2Proof.Machine

/-- The decimal-point part of the mask vector (41_overlay.md R125). -/
def dpMask (dp : Int) : GlyphBuffer :=
  if dp = 0 then ⟨0x80, 0, 0, 0, 0, 0⟩
  else if dp = 1 then ⟨0, 0x80, 0, 0, 0, 0⟩
  else if dp = 2 then ⟨0, 0, 0x80, 0, 0, 0⟩
  else .blank

/-- The battery part of the mask vector (41_overlay.md R125). -/
def batteryMask (bl : Int) : GlyphBuffer :=
  if bl = 0 then ⟨0, 0, 0, 0x80, 0, 0⟩
  else if bl = 1 then ⟨0, 0, 0, 0x80, 0x80, 0⟩
  else if bl = 2 then ⟨0, 0, 0, 0x80, 0x80, 0x80⟩
  else .blank

/-- The mask vector `M(dp, bl)` (41_overlay.md R125). -/
def indicatorMask (dp bl : Int) : GlyphBuffer := (dpMask dp).or (batteryMask bl)

/-- `applyIndicators(b, dp, bl)`; `none` is the failure `InvalidArgument` (41_overlay.md R124). -/
def applyIndicators (b : GlyphBuffer) (dp bl : Int) : Option GlyphBuffer :=
  if legalSelector dp && legalSelector bl then some (b.or (indicatorMask dp bl)) else none

/-- The accumulator after the opcode and the address (42_frame_builder.md R146). -/
def packHeader (acc : BitVec 64) : BitVec 64 := append (append acc Config.opc) Config.addr

/-- The accumulator after the first `n` glyph bytes (42_frame_builder.md R147). -/
def packGlyphs (acc : BitVec 64) (b : GlyphBuffer) (n : Nat) : BitVec 64 :=
  (b.toList.take n).foldl (fun a v => append a v) acc

/-- All the fields of a frame, appended to whatever the accumulator held. -/
def packFrom (acc : BitVec 64) (b : GlyphBuffer) : BitVec 64 :=
  append (packGlyphs (packHeader acc) b 6) Config.pad

/-- `buildFrame(b)` (42_frame_builder.md R146). -/
def buildFrame (b : GlyphBuffer) : FrameWord := packFrom 0 b

/-- `Req(b, dp, bl)`; `none` is `InvalidArgument` (44_show_request.md R188). -/
def req (b : GlyphBuffer) (dp bl : Int) : Option FrameWord := (applyIndicators b dp bl).map buildFrame

end Sys2Proof.Machine
end

