-- ==== Sys2Proof/Safety.lean ====
section
/-! DEFINITION. The terms in which claims are made: runs under inputs that change between steps, reachable states, the
invariants of spec/10_state.md R41, and what a frame statement compares. -/

namespace Sys2Proof.Machine

/-! ### Runs -/

/-- `n` steps under the inputs as they stand. -/
def runN : Nat → State → Host.Outcome State Fault Refusal
  | 0, s => .next s
  | n + 1, s =>
    match step s with
    | .next t => runN n t
    | .fault f => .fault f
    | .refused r => .refused r

/-- One step per element: the host puts new levels on the request port, then the machine steps (10_state.md R35). -/
def runWith : List Inputs → State → Host.Outcome State Fault Refusal
  | [], s => .next s
  | i :: is, s =>
    match step (s.drive i) with
    | .next t => runWith is t
    | .fault f => .fault f
    | .refused r => .refused r

/-- The states the machine can be in, whatever the host drives on its ports and whatever calls it makes. -/
inductive Reachable : State → Prop where
  | reset : Reachable State.reset
  | step {s t : State} : Reachable s → Machine.step s = .next t → Reachable t
  | drive {s : State} (i : Inputs) : Reachable s → Reachable (s.drive i)
  | driveRst {s : State} (level : Bool) : Reachable s → Reachable (s.driveRst level)
  | enqueue {s : State} (op : HostOp) : Reachable s → Reachable (s.enqueue op)
  | transmitNow {s : State} : Reachable s → Reachable s.transmitNow

/-- The block has the move to itself: `rst` is released, nothing is with the transport, and no call is in progress. -/
abbrev State.Quiet (s : State) : Prop :=
  s.ports.rst = false ∧ s.bus.outbox = none ∧ s.caller.call = .idle

/-- Every code in the block's registers has a meaning (30_encoding.md R82). -/
abbrev Block.CodesLegal (b : Block) : Prop := b.unusedCode = none

/-- The host can start its next call: the block is ready and no request stands on the port. -/
abbrev State.HostFree (s : State) : Prop :=
  s.Quiet ∧ s.block.CodesLegal ∧ s.block.phase = phaseIdle ∧ s.ports.reqValid = false

/-! ### What frame statements compare -/

/-- Everything outside the block's registers is the same: ports, bus and host. -/
abbrev State.SameOutside (s t : State) : Prop :=
  t.ports = s.ports ∧ t.bus = s.bus ∧ t.caller = s.caller

/-- The operand registers are the same. -/
abbrev Block.SameOperands (a b : Block) : Prop := b.dp = a.dp ∧ b.bl = a.bl

/-- The marks of the model (assumption log 2) are the same. -/
abbrev Block.SameMarks (a b : Block) : Prop := b.loaded = a.loaded ∧ b.framed = a.framed

/-- The flags are the same. -/
abbrev Block.SameFlags (a b : Block) : Prop :=
  b.done = a.done ∧ b.err = a.err ∧ b.ecode = a.ecode

/-- The accumulator and its bookkeeping are the same. -/
abbrev Block.SameAccumulator (a b : Block) : Prop :=
  b.acc = a.acc ∧ b.nb = a.nb ∧ b.idx = a.idx

/-! ### The invariants of 10_state.md R41 -/

/-- `NB` as `PHASE` and `IDX` determine it while a request is in progress (R41 (e)). -/
def bitsAppended (phase : BitVec 4) (idx : BitVec 3) : Nat :=
  match phase.toNat with
  | 5 => 3
  | 6 => 9 + 8 * idx.toNat
  | 7 => 57
  | 8 => 64
  | _ => 0

/-- `ACC` as `PHASE`, `IDX` and `GB` determine it while a request is in progress (42_frame_builder.md R147). -/
def bitsPacked (g : GlyphBuffer) (phase : BitVec 4) (idx : BitVec 3) : BitVec 64 :=
  match phase.toNat with
  | 5 => append 0 Config.opc
  | 6 => packGlyphs (packHeader 0) g idx.toNat
  | 7 => packGlyphs (packHeader 0) g 6
  | 8 => buildFrame g
  | _ => 0

/-- The clauses (a) to (g) of R41. -/
structure Block.ManualInv (b : Block) : Prop where
  phase_legal : b.phase.toNat ≤ 8
  idx_le : b.idx.toNat ≤ 5
  idx_only_in_dat : b.idx ≠ 0 → b.phase = phasePackDat
  not_done_and_err : ¬(b.done = true ∧ b.err = true)
  clear_while_busy : b.phase ≠ phaseIdle → b.done = false ∧ b.err = false
  nb_determined : b.phase ≠ phaseIdle → b.nb.toNat = bitsAppended b.phase b.idx
  acc_bounded : b.phase ≠ phaseIdle → b.acc.toNat < 2 ^ b.nb.toNat
  frame_form : b.done = true →
    b.frame.extractLsb' 55 9 = 0b101000000 ∧ b.frame.extractLsb' 0 7 = 0

/-- R41 with what makes it inductive: the accumulator's exact value (R147), checked selectors after CHECK, the codes of
the error field, the marks of R39, what `DONE` says of `FRAME` (R29), and the count left behind in IDLE (R155). -/
structure Block.Inv (b : Block) : Prop extends b.ManualInv where
  acc_exact : b.phase ≠ phaseIdle → b.acc = bitsPacked b.gb b.phase b.idx
  selectors_checked : b.phase.toNat ≥ 2 → legalSelector b.dp.toInt = true ∧ legalSelector b.bl.toInt = true
  ecode_of_err : b.ecode = if b.err then 1 else 0
  loaded_while_busy : b.phase ≠ phaseIdle → b.loaded = true
  framed_when_done : b.done = true → b.framed = true
  frame_of_request : b.done = true → b.frame = buildFrame b.gb
  frame_wellFormed : b.framed = true → frameWellFormed b.frame = true
  nb_in_idle : b.phase = phaseIdle → b.nb = 0 ∨ b.nb = 64

/-- The steps left in a request, counted from its phase (44_show_request.md R186, R190). -/
def Block.stepsLeft (b : Block) : Nat :=
  match b.phase.toNat with
  | 1 => 13
  | 2 => 12
  | 3 => 11
  | 4 => 10
  | 5 => 9
  | 6 => 8 - b.idx.toNat
  | 7 => 2
  | 8 => 1
  | _ => 0

end Sys2Proof.Machine
end

