-- ==== Sys2Proof/Certificates/Slice0/Obligations.lean ====
section
/-! DEFINITION. The statements for the provers, from the numbered rules of spec/. -/

open Sys2Proof Sys2Proof.Machine

/-! ### Encodings (spec/30_encoding.md, spec/20_memory.md) -/

/-- The words of the opcode table, written out from R78, R84 and the frame of 95_test_vectors.md P2, decode to what they stand
for. -/
def Obligations.SampleWordsDecode : Prop :=
  decodeTableWord 4 0b0000 = some .load ∧ decodeTableWord 4 0b0001 = some .check ∧
  decodeTableWord 4 0b0010 = some .ovlDp ∧ decodeTableWord 4 0b0011 = some .ovlBat ∧
  decodeTableWord 4 0b0100 = some .packOpc ∧ decodeTableWord 4 0b0101 = some .packAdr ∧
  decodeTableWord 4 0b0110 = some .packDat ∧ decodeTableWord 4 0b0111 = some .packPad ∧
  decodeTableWord 4 0b1000 = some .emit ∧
  decodeTableWord 16 0b1000000000000000 = some .init1 ∧
  decodeTableWord 40 0b1000000000100010100100000001100000110000 = some .init2 ∧
  decodeTableWord 64 0xA0491A2B7C4D5E00 = some (.write 0x92 0x34 0x56 0xF8 0x9A 0xBC)

/-- Every operation's code decodes to that operation, with every glyph byte at every value. -/
def Obligations.DecodeOfEncodeIsTheInstruction : Prop :=
  ∀ i : Instr, decode (encode i) = .ok i

/-- Each code has one meaning: a code that decodes to an operation is that operation's code. -/
def Obligations.EncodeOfDecodeIsTheCode : Prop :=
  ∀ (c : Code) (i : Instr), decode c = .ok i → encode i = c

/-- R73: which words are frames, what they decode to, and both round trips. -/
def Obligations.FramesDecodeAndEncodeBack : Prop :=
  (∀ w : FrameWord,
    (frameWellFormed w = true ↔ w &&& 0xFF8000000000007F = 0xA000000000000000) ∧
    (frameWellFormed w = true →
      decodeFrame w = .ok (Instr.ofGlyphs (glyphsOfFrame w)) ∧
      buildFrame (glyphsOfFrame w) = w ∧
      ∀ i : Fin 6, (glyphsOfFrame w).get i = w.extractLsb' (47 - 8 * i.val) 8)) ∧
  (∀ g : GlyphBuffer, frameWellFormed (buildFrame g) = true ∧ glyphsOfFrame (buildFrame g) = g)

/-- R71: the position of every field of a frame, and of the six indicator bits. -/
def Obligations.FrameFieldPositions : Prop :=
  ∀ g : GlyphBuffer,
    (buildFrame g).extractLsb' 61 3 = 0b101 ∧ (buildFrame g).extractLsb' 55 6 = 0b000000 ∧
    (buildFrame g).extractLsb' 0 7 = 0b0000000 ∧
    ∀ i : Fin 6, (buildFrame g).extractLsb' (47 - 8 * i.val) 8 = g.get i ∧
      (buildFrame g).getLsbD (54 - 8 * i.val) = (g.get i).getLsbD 7

/-- R72: the frame as a concatenation and as 64-bit arithmetic, its constant bits and its range. -/
def Obligations.FrameClosedForm : Prop :=
  ∀ g : GlyphBuffer,
    buildFrame g =
      BitVec.cast rfl (0b101#3 ++ 0b000000#6 ++ (g.g0 ++ g.g1 ++ g.g2 ++ g.g3 ++ g.g4 ++ g.g5) ++ 0b0000000#7) ∧
    buildFrame g =
      0xA000000000000000 ||| ((g.g0 ++ g.g1 ++ g.g2 ++ g.g3 ++ g.g4 ++ g.g5).setWidth 64 <<< 7) ∧
    buildFrame g &&& 0xFF8000000000007F = 0xA000000000000000 ∧
    0xA000000000000000 ≤ (buildFrame g).toNat ∧ (buildFrame g).toNat ≤ 0xA07FFFFFFFFFFF80 ∧
    (buildFrame g).getLsbD 63 = true

/-- R58: the eight output bytes, each glyph byte straddling two of them. -/
def Obligations.FrameBytesStraddle : Prop :=
  ∀ g : GlyphBuffer, frameBytes (buildFrame g) =
    [0xA0, 0#1 ++ g.g0.extractLsb' 1 7,
     g.g0.extractLsb' 0 1 ++ g.g1.extractLsb' 1 7, g.g1.extractLsb' 0 1 ++ g.g2.extractLsb' 1 7,
     g.g2.extractLsb' 0 1 ++ g.g3.extractLsb' 1 7, g.g3.extractLsb' 0 1 ++ g.g4.extractLsb' 1 7,
     g.g4.extractLsb' 0 1 ++ g.g5.extractLsb' 1 7, g.g5.extractLsb' 0 1 ++ 0#7]

/-- R57: transmitting a frame puts its bits on the wire in the order bit 63 to bit 0, beginning 1, 0, 1. That WRITE is an
instruction is the model's reading (assumption log 9), and whether its transfer fails is a free value (log 10). -/
def Obligations.WireOrderIsMostSignificantFirst : Prop :=
  (∀ (w : FrameWord) (n : Nat), n < 64 → (wireBits (frameBytes w))[n]? = some (w.getLsbD (63 - n))) ∧
  ∀ (g : GlyphBuffer) (s : State), ∃ t failed,
    exec (Instr.ofGlyphs g) s = .next t ∧
    t.bus.wire = s.bus.wire ++ [{ bytes := frameBytes (buildFrame g), failed := failed }] ∧
    (wireBits (frameBytes (buildFrame g))).length = 64 ∧
    (wireBits (frameBytes (buildFrame g))).take 3 = [true, false, true]

/-- R82: unused codes are refused, and no reachable state holds one. -/
def Obligations.UnusedCodesAreRefused : Prop :=
  (∀ s : State, s.ports.rst = false →
    (9 ≤ s.block.phase.toNat ∨ 6 ≤ s.block.idx.toNat ∨ s.block.ecode = 3) → ∃ r, step s = .refused r) ∧
  (∀ s : State, Reachable s →
    s.block.phase.toNat < 9 ∧ s.block.idx.toNat < 6 ∧ s.block.ecode ≠ 3)

/-- The transport clocks out all eight bytes of whatever it is given to transmit, a frame of this block or not, and the block
is not involved (R173; that it does not judge them is assumption log 12, whether the transfer fails is log 10); a frame the
block shows under `DONE` is always a well-formed transfer (R81). -/
def Obligations.TransmitSendsWhateverItIsGiven : Prop :=
  (∀ (s : State) (w : FrameWord), s.ports.rst = false → s.block.CodesLegal → s.bus.outbox = some (.transmit w) →
    ∃ t failed, step s = .next t ∧
      t.bus.wire = s.bus.wire ++ [{ bytes := frameBytes w, failed := failed }] ∧ t.bus.outbox = none ∧
      t.bus.report = (if failed then .failed else .completed) ∧
      t.block = s.block ∧ t.ports = s.ports ∧ t.caller = s.caller) ∧
  (∀ s : State, Reachable s → s.block.done = true → transferWellFormed (frameBytes s.block.frame) = true)

/-- R75: the legal patterns of a selector on its 8-bit port (the width is the spec's default, assumption log 4). -/
def Obligations.LegalSelectorPatterns : Prop :=
  ∀ v : Sel, legalSelector v.toInt = true ↔ (v = 0xFF ∨ v = 0x00 ∨ v = 0x01 ∨ v = 0x02)

/-! ### Append and buildFrame (spec/42_frame_builder.md) -/

/-- R140: the bit-serial form, the field form, and the form over unbounded integers are the same. -/
def Obligations.AppendSerialIsFieldForm : Prop :=
  ∀ (w : Nat) (v : BitVec w),
    (∀ acc : BitVec 64, append acc v = (acc <<< w) ||| v.setWidth 64) ∧
    (∀ acc : Nat, appendNat acc v = acc * 2 ^ w + v.toNat ∧ ((acc <<< w) ||| v.toNat) = acc * 2 ^ w + v.toNat)

/-- R157, R158: no set bit is shifted out, so the 64-bit accumulator is the unbounded one; and what the block holds stays below
`2^NB`, with `NB` at most 64. -/
def Obligations.AppendNeverLosesABit : Prop :=
  (∀ (w n : Nat) (v : BitVec w) (acc : BitVec 64), acc.toNat < 2 ^ n → n + w ≤ 64 →
    (append acc v).toNat = appendNat acc.toNat v ∧ (append acc v).toNat < 2 ^ (n + w)) ∧
  (∀ s : State, Reachable s → s.block.phase ≠ phaseIdle →
    s.block.acc.toNat < 2 ^ s.block.nb.toNat ∧ s.block.nb.toNat ≤ 64)

/-- R156: the frame does not depend on what the accumulator held before the opcode. -/
def Obligations.FrameForgetsTheOldAccumulator : Prop :=
  ∀ (acc : BitVec 64) (g : GlyphBuffer), packFrom acc g = buildFrame g

/-- R154: `buildFrame` is injective, and its values are exactly the words with the frame's constant bits. -/
def Obligations.BuildFrameIsInjective : Prop :=
  (∀ a b : GlyphBuffer, buildFrame a = buildFrame b → a = b) ∧
  (∀ w : FrameWord, (∃ b, buildFrame b = w) ↔ w &&& 0xFF8000000000007F = 0xA000000000000000)

/-- R146: after PACK.OPC to EMIT the block's `FRAME` is `buildFrame(GB)`, which is the closed form of R72. -/
def Obligations.BlockBuildsTheFrame : Prop :=
  (∀ g : GlyphBuffer, buildFrame g =
      0xA000000000000000 ||| ((g.g0 ++ g.g1 ++ g.g2 ++ g.g3 ++ g.g4 ++ g.g5).setWidth 64 <<< 7)) ∧
  (∀ s : State, s.Quiet → s.block.CodesLegal → s.block.phase = phasePackOpc →
    ∃ t, runN 10 s = .next t ∧ t.block.frame = buildFrame s.block.gb ∧ t.block.done = true ∧
      t.block.phase = phaseIdle ∧ t.block.gb = s.block.gb)

/-- R147: `ACC` and `NB` on entry to each step of a request, in every reachable state. -/
def Obligations.AccumulatorValues : Prop :=
  ∀ s : State, Reachable s →
    ((s.block.phase = phaseCheck ∨ s.block.phase = phaseOvlDp ∨ s.block.phase = phaseOvlBat ∨
        s.block.phase = phasePackOpc) → s.block.nb = 0 ∧ s.block.acc = 0) ∧
    (s.block.phase = phasePackAdr → s.block.nb = 3 ∧ s.block.acc = 0b101) ∧
    (s.block.phase = phasePackDat → s.block.idx = 0 → s.block.nb = 9 ∧ s.block.acc = 0x140) ∧
    (s.block.phase = phasePackDat → s.block.idx = 1 → s.block.nb = 17 ∧
      s.block.acc = (0b101000000#9 ++ s.block.gb.g0).setWidth 64) ∧
    (s.block.phase = phasePackDat → s.block.idx = 2 → s.block.nb = 25 ∧
      s.block.acc = (0b101000000#9 ++ s.block.gb.g0 ++ s.block.gb.g1).setWidth 64) ∧
    (s.block.phase = phasePackDat → s.block.idx = 3 → s.block.nb = 33 ∧
      s.block.acc = (0b101000000#9 ++ s.block.gb.g0 ++ s.block.gb.g1 ++ s.block.gb.g2).setWidth 64) ∧
    (s.block.phase = phasePackDat → s.block.idx = 4 → s.block.nb = 41 ∧
      s.block.acc = (0b101000000#9 ++ s.block.gb.g0 ++ s.block.gb.g1 ++ s.block.gb.g2 ++ s.block.gb.g3).setWidth 64) ∧
    (s.block.phase = phasePackDat → s.block.idx = 5 → s.block.nb = 49 ∧
      s.block.acc =
        (0b101000000#9 ++ s.block.gb.g0 ++ s.block.gb.g1 ++ s.block.gb.g2 ++ s.block.gb.g3 ++ s.block.gb.g4).setWidth 64) ∧
    (s.block.phase = phasePackPad → s.block.nb = 57 ∧
      s.block.acc =
        (0b101000000#9 ++ s.block.gb.g0 ++ s.block.gb.g1 ++ s.block.gb.g2 ++ s.block.gb.g3 ++ s.block.gb.g4 ++
          s.block.gb.g5).setWidth 64) ∧
    (s.block.phase = phaseEmit → s.block.nb = 64 ∧
      s.block.acc =
        BitVec.cast rfl (0b101000000#9 ++ s.block.gb.g0 ++ s.block.gb.g1 ++ s.block.gb.g2 ++ s.block.gb.g3 ++
          s.block.gb.g4 ++ s.block.gb.g5 ++ 0b0000000#7))

/-! ### The overlay engine (spec/41_overlay.md) -/

/-- R120: LOAD samples the whole request port and clears the working registers and the flags; `FRAME` stays; with
`req_valid = 0` nothing changes. -/
def Obligations.LoadAcceptsTheRequest : Prop :=
  decode (.phase 0b0000) = .ok .load ∧
  (∀ s : State, s.ports.reqValid = true → ∃ t, exec .load s = .next t ∧
    t.block.gb = s.ports.gbIn ∧ t.block.dp = s.ports.dpIn ∧ t.block.bl = s.ports.blIn ∧
    t.block.acc = 0 ∧ t.block.nb = 0 ∧ t.block.idx = 0 ∧
    t.block.done = false ∧ t.block.err = false ∧ t.block.ecode = 0 ∧ t.block.phase = phaseCheck ∧
    t.block.frame = s.block.frame ∧ s.SameOutside t) ∧
  (∀ s : State, s.ports.reqValid = false → exec .load s = .next s)

/-- R121: CHECK passes exactly when both selectors are in {-1, 0, 1, 2}, and otherwise raises the one error; it changes
nothing else. -/
def Obligations.CheckValidatesBothSelectors : Prop :=
  decode (.phase 0b0001) = .ok .check ∧
  ∀ s : State, ∃ t, exec .check s = .next t ∧
    t.block.gb = s.block.gb ∧ t.block.frame = s.block.frame ∧ t.block.done = s.block.done ∧
    s.block.SameAccumulator t.block ∧ s.block.SameOperands t.block ∧ s.SameOutside t ∧
    (((s.block.dp.toInt = -1 ∨ s.block.dp.toInt = 0 ∨ s.block.dp.toInt = 1 ∨ s.block.dp.toInt = 2) ∧
        (s.block.bl.toInt = -1 ∨ s.block.bl.toInt = 0 ∨ s.block.bl.toInt = 1 ∨ s.block.bl.toInt = 2) →
      t.block.phase = phaseOvlDp ∧ t.block.err = s.block.err ∧ t.block.ecode = s.block.ecode) ∧
     (¬((s.block.dp.toInt = -1 ∨ s.block.dp.toInt = 0 ∨ s.block.dp.toInt = 1 ∨ s.block.dp.toInt = 2) ∧
        (s.block.bl.toInt = -1 ∨ s.block.bl.toInt = 0 ∨ s.block.bl.toInt = 1 ∨ s.block.bl.toInt = 2)) →
      t.block.phase = phaseIdle ∧ t.block.err = true ∧ t.block.ecode = 1))

/-- R203: what raising does, as a step of the machine in a request whose selectors are not both legal. -/
def Obligations.RaisingEndsTheRequest : Prop :=
  ∀ s : State, s.Quiet → s.block.Inv → s.block.phase = phaseCheck →
    ¬(legalSelector s.block.dp.toInt = true ∧ legalSelector s.block.bl.toInt = true) →
    ∃ t, step s = .next t ∧ t.block.err = true ∧ t.block.ecode = 1 ∧ t.block.phase = phaseIdle ∧
      t.block.done = false ∧ t.block.gb = s.block.gb ∧ t.block.acc = 0 ∧ t.block.nb = 0 ∧
      t.block.frame = s.block.frame ∧ t.block.idx = s.block.idx ∧ s.block.SameOperands t.block ∧ s.SameOutside t

/-- R122: OVL.DP sets bit 7 of `GB[DP]` and of no other register, or changes nothing for -1. -/
def Obligations.OvlDpLightsOneByte : Prop :=
  decode (.phase 0b0010) = .ok .ovlDp ∧
  ∀ s : State, (s.block.dp.toInt = -1 ∨ s.block.dp.toInt = 0 ∨ s.block.dp.toInt = 1 ∨ s.block.dp.toInt = 2) →
    ∃ t, exec .ovlDp s = .next t ∧ t.block.phase = phaseOvlBat ∧
      (∀ i : Fin 6, ((i.val : Int) = s.block.dp.toInt → t.block.gb.get i = s.block.gb.get i ||| 0x80) ∧
        ((i.val : Int) ≠ s.block.dp.toInt → t.block.gb.get i = s.block.gb.get i)) ∧
      t.block.frame = s.block.frame ∧ s.block.SameAccumulator t.block ∧ s.block.SameOperands t.block ∧
      s.block.SameFlags t.block ∧ s.SameOutside t

/-- OVL.DP stops by name on a `DP` that CHECK would not pass, for which no rule gives it an effect (R51; the model's choice,
assumption log 7), and no such state is reachable. -/
def Obligations.OvlDpStopsOnlyOnUncheckedSelectors : Prop :=
  (∀ s : State, exec .ovlDp s = .fault .uncheckedSelector ↔ legalSelector s.block.dp.toInt = false) ∧
  (∀ s : State, Reachable s → s.block.phase = phaseOvlDp → legalSelector s.block.dp.toInt = true)

/-- R123: OVL.BAT sets bit 7 cumulatively at indices 3, 4, 5, or changes nothing for -1. -/
def Obligations.OvlBatLightsTheStagedBytes : Prop :=
  decode (.phase 0b0011) = .ok .ovlBat ∧
  ∀ s : State, (s.block.bl.toInt = -1 ∨ s.block.bl.toInt = 0 ∨ s.block.bl.toInt = 1 ∨ s.block.bl.toInt = 2) →
    ∃ t, exec .ovlBat s = .next t ∧ t.block.phase = phasePackOpc ∧
      t.block.gb.g0 = s.block.gb.g0 ∧ t.block.gb.g1 = s.block.gb.g1 ∧ t.block.gb.g2 = s.block.gb.g2 ∧
      t.block.gb.g3 = (if s.block.bl.toInt ≥ 0 then s.block.gb.g3 ||| 0x80 else s.block.gb.g3) ∧
      t.block.gb.g4 = (if s.block.bl.toInt ≥ 1 then s.block.gb.g4 ||| 0x80 else s.block.gb.g4) ∧
      t.block.gb.g5 = (if s.block.bl.toInt = 2 then s.block.gb.g5 ||| 0x80 else s.block.gb.g5) ∧
      t.block.frame = s.block.frame ∧ s.block.SameAccumulator t.block ∧ s.block.SameOperands t.block ∧
      s.block.SameFlags t.block ∧ s.SameOutside t

/-- R125: the mask vector of the sixteen legal selector pairs, each part as tabulated. -/
def Obligations.IndicatorMaskTable : Prop :=
  (dpMask (-1) = ⟨0, 0, 0, 0, 0, 0⟩ ∧ dpMask 0 = ⟨0x80, 0, 0, 0, 0, 0⟩ ∧
    dpMask 1 = ⟨0, 0x80, 0, 0, 0, 0⟩ ∧ dpMask 2 = ⟨0, 0, 0x80, 0, 0, 0⟩) ∧
  (batteryMask (-1) = ⟨0, 0, 0, 0, 0, 0⟩ ∧ batteryMask 0 = ⟨0, 0, 0, 0x80, 0, 0⟩ ∧
    batteryMask 1 = ⟨0, 0, 0, 0x80, 0x80, 0⟩ ∧ batteryMask 2 = ⟨0, 0, 0, 0x80, 0x80, 0x80⟩) ∧
  (∀ dp bl : Int, ∀ i : Fin 6,
    (indicatorMask dp bl).get i = (dpMask dp).get i ||| (batteryMask bl).get i ∧
    ((indicatorMask dp bl).get i = 0x00 ∨ (indicatorMask dp bl).get i = 0x80))

/-- R124: `applyIndicators` as a function, and the block computes exactly it in LOAD, CHECK, OVL.DP, OVL.BAT. -/
def Obligations.BlockAppliesTheIndicators : Prop :=
  (∀ (b : GlyphBuffer) (dp bl : Int),
    (applyIndicators b dp bl = none ↔
      ¬((dp = -1 ∨ dp = 0 ∨ dp = 1 ∨ dp = 2) ∧ (bl = -1 ∨ bl = 0 ∨ bl = 1 ∨ bl = 2))) ∧
    ∀ r, applyIndicators b dp bl = some r → ∀ i : Fin 6, r.get i = b.get i ||| (indicatorMask dp bl).get i) ∧
  (∀ s : State, s.Quiet → s.block.CodesLegal → s.block.phase = phaseIdle → s.ports.reqValid = true →
    match applyIndicators s.ports.gbIn s.ports.dpIn.toInt s.ports.blIn.toInt with
    | some r => ∃ t, runN 4 s = .next t ∧ t.block.gb = r ∧ t.block.phase = phasePackOpc
    | none => ∃ t, runN 2 s = .next t ∧ t.block.gb = s.ports.gbIn ∧ t.block.err = true ∧ t.block.ecode = 1 ∧
        t.block.phase = phaseIdle)

/-- R126: the overlay changes only bit 7; it is idempotent, its two micro-operations commute, it only adds set bits, and
without selectors it is the identity. -/
def Obligations.OverlayLaws : Prop :=
  (∀ (b r : GlyphBuffer) (dp bl : Int), applyIndicators b dp bl = some r →
    (∀ i : Fin 6, (r.get i).extractLsb' 0 7 = (b.get i).extractLsb' 0 7 ∧
      (r.get i).getLsbD 7 = ((b.get i).getLsbD 7 || ((indicatorMask dp bl).get i).getLsbD 7) ∧
      r.get i &&& b.get i = b.get i) ∧
    applyIndicators r dp bl = some r) ∧
  (∀ b : GlyphBuffer, applyIndicators b (-1) (-1) = some b) ∧
  (∀ s t1 t2 u1 u2 : State, exec .ovlDp s = .next t1 → exec .ovlBat t1 = .next t2 →
    exec .ovlBat s = .next u1 → exec .ovlDp u1 = .next u2 → t2.block.gb = u2.block.gb)

/-! ### The frame builder's micro-operations (spec/42_frame_builder.md) -/

/-- R141. -/
def Obligations.PackOpcAppendsTheOpcode : Prop :=
  decode (.phase 0b0100) = .ok .packOpc ∧
  ∀ s : State, ∃ t, exec .packOpc s = .next t ∧
    t.block.acc = append s.block.acc (0b101 : BitVec 3) ∧ t.block.nb = s.block.nb + 3 ∧
    t.block.phase = phasePackAdr ∧ t.block.idx = s.block.idx ∧ t.block.gb = s.block.gb ∧
    t.block.frame = s.block.frame ∧ s.block.SameOperands t.block ∧ s.block.SameFlags t.block ∧ s.SameOutside t ∧
    (s.block.Inv → s.block.phase = phasePackOpc →
      s.block.acc = 0 ∧ s.block.nb = 0 ∧ t.block.acc = 0x0000000000000005 ∧ t.block.nb = 3)

/-- R142. -/
def Obligations.PackAdrAppendsTheAddress : Prop :=
  decode (.phase 0b0101) = .ok .packAdr ∧
  ∀ s : State, ∃ t, exec .packAdr s = .next t ∧
    t.block.acc = append s.block.acc (0b000000 : BitVec 6) ∧ t.block.nb = s.block.nb + 6 ∧
    t.block.idx = 0 ∧ t.block.phase = phasePackDat ∧ t.block.gb = s.block.gb ∧
    t.block.frame = s.block.frame ∧ s.block.SameOperands t.block ∧ s.block.SameFlags t.block ∧ s.SameOutside t ∧
    (s.block.Inv → s.block.phase = phasePackAdr → t.block.acc = 0x0000000000000140 ∧ t.block.nb = 9)

/-- R143: one glyph byte, the loop of six passes, and the values after the pass with `IDX = i`. -/
def Obligations.PackDatAppendsOneGlyphByte : Prop :=
  decode (.phase 0b0110) = .ok .packDat ∧
  ∀ (s : State) (i : Fin 6), s.block.idx.toNat = i.val →
    ∃ t, exec .packDat s = .next t ∧
      t.block.acc = append s.block.acc (s.block.gb.get i) ∧ t.block.nb = s.block.nb + 8 ∧
      (s.block.idx = 5 → t.block.idx = 0 ∧ t.block.phase = phasePackPad) ∧
      (s.block.idx ≠ 5 → t.block.idx = s.block.idx + 1 ∧ t.block.phase = phasePackDat) ∧
      t.block.gb = s.block.gb ∧ t.block.frame = s.block.frame ∧ s.block.SameOperands t.block ∧
      s.block.SameFlags t.block ∧ s.SameOutside t ∧
      (s.block.Inv → s.block.phase = phasePackDat →
        t.block.nb.toNat = 17 + 8 * i.val ∧ t.block.acc = packGlyphs 0x140 s.block.gb (i.val + 1))

/-- R144. -/
def Obligations.PackPadAppendsThePadding : Prop :=
  decode (.phase 0b0111) = .ok .packPad ∧
  ∀ s : State, ∃ t, exec .packPad s = .next t ∧
    t.block.acc = append s.block.acc (0b0000000 : BitVec 7) ∧ t.block.acc = s.block.acc <<< 7 ∧
    t.block.nb = s.block.nb + 7 ∧ t.block.phase = phaseEmit ∧ t.block.idx = s.block.idx ∧
    t.block.gb = s.block.gb ∧ t.block.frame = s.block.frame ∧ s.block.SameOperands t.block ∧
    s.block.SameFlags t.block ∧ s.SameOutside t ∧
    (s.block.Inv → s.block.phase = phasePackPad →
      s.block.nb = 57 ∧ t.block.nb = 64 ∧ t.block.acc.extractLsb' 61 3 = 0b101 ∧ t.block.acc.extractLsb' 0 7 = 0)

/-- R145: EMIT presents the frame, and no other micro-operation writes `FRAME` or sets `DONE`. -/
def Obligations.EmitPresentsTheFrame : Prop :=
  decode (.phase 0b1000) = .ok .emit ∧
  (∀ s : State, ∃ t, exec .emit s = .next t ∧
    t.block.frame = s.block.acc ∧ t.block.done = true ∧ t.block.phase = phaseIdle ∧
    (∀ k : Fin 8, (frameBytes t.block.frame)[k.val]? = some (s.block.acc.extractLsb' (56 - 8 * k.val) 8)) ∧
    t.block.gb = s.block.gb ∧ t.block.dp = s.block.dp ∧ t.block.bl = s.block.bl ∧
    s.block.SameAccumulator t.block ∧ t.block.err = s.block.err ∧ t.block.ecode = s.block.ecode ∧
    s.SameOutside t ∧
    (s.block.Inv → s.block.phase = phaseEmit →
      s.block.nb = 64 ∧ (frameBytes t.block.frame)[0]? = some 0xA0)) ∧
  (∀ (i : Instr) (s t : State), i ≠ .emit → exec i s = .next t →
    t.block.frame = s.block.frame ∧ (t.block.done = true → s.block.done = true))

/-- R38: the writes of the access matrix, for every micro-operation: whatever a micro-operation's row leaves empty keeps its
value, OVL.DP writes one glyph register of 0 to 2 at most, CHECK writes `ERR` and `ECODE` on failure only; the three operations
of the bus (assumption log 9) write no register. -/
def Obligations.MicroOpsWriteOnlyTheirRegisters : Prop :=
  ∀ (i : Instr) (s t : State), exec i s = .next t →
    (i ≠ .load → i ≠ .ovlDp → i ≠ .ovlBat → t.block.gb = s.block.gb) ∧
    (i = .ovlDp → ∃ p : Fin 6, p.val ≤ 2 ∧ ∀ k : Fin 6, k ≠ p → t.block.gb.get k = s.block.gb.get k) ∧
    (i = .ovlBat → t.block.gb.g0 = s.block.gb.g0 ∧ t.block.gb.g1 = s.block.gb.g1 ∧ t.block.gb.g2 = s.block.gb.g2) ∧
    (i ≠ .load → t.block.dp = s.block.dp ∧ t.block.bl = s.block.bl) ∧
    (i ≠ .load → i ≠ .packOpc → i ≠ .packAdr → i ≠ .packDat → i ≠ .packPad →
      t.block.acc = s.block.acc ∧ t.block.nb = s.block.nb) ∧
    (i ≠ .emit → t.block.frame = s.block.frame) ∧
    (i ≠ .load → i ≠ .packAdr → i ≠ .packDat → t.block.idx = s.block.idx) ∧
    (i ≠ .load → i ≠ .emit → t.block.done = s.block.done) ∧
    (i ≠ .load → i ≠ .check → t.block.err = s.block.err ∧ t.block.ecode = s.block.ecode) ∧
    (i = .check → legalSelector s.block.dp.toInt = true → legalSelector s.block.bl.toInt = true →
      t.block.err = s.block.err ∧ t.block.ecode = s.block.ecode) ∧
    (∀ g : GlyphBuffer, i = Instr.ofGlyphs g ∨ i = .init1 ∨ i = .init2 → t.block = s.block)

/-! ### The transport's operations (spec/43_transport_downstream.md) -/

/-- R171: `reset()` makes one transfer of the two bytes 80 00 and leaves every register of the block as it was. -/
def Obligations.Init1IsOneTransfer : Prop :=
  decode (.transfer [0x80, 0x00]) = .ok .init1 ∧
  ∀ s : State, ∃ t failed, exec .init1 s = .next t ∧
    t.bus.wire = s.bus.wire ++ [{ bytes := [0x80, 0x00], failed := failed }] ∧
    t.bus.report = (if failed then .failed else .completed) ∧ t.bus.outbox = s.bus.outbox ∧
    t.block = s.block ∧ t.ports = s.ports ∧ t.caller = s.caller

/-- R172: `initialize(config)` makes one transfer of five bytes and leaves every register of the block as it was. -/
def Obligations.Init2IsOneTransfer : Prop :=
  decode (.transfer [0x80, 0x22, 0x90, 0x18, 0x30]) = .ok .init2 ∧
  ∀ s : State, ∃ t failed, exec .init2 s = .next t ∧
    t.bus.wire = s.bus.wire ++ [{ bytes := [0x80, 0x22, 0x90, 0x18, 0x30], failed := failed }] ∧
    t.bus.report = (if failed then .failed else .completed) ∧ t.bus.outbox = s.bus.outbox ∧
    t.block = s.block ∧ t.ports = s.ports ∧ t.caller = s.caller

/-- R173, R174: `transmit` of a frame makes one transfer of all eight bytes, and, failed or not, leaves every register of the
block as it was. -/
def Obligations.WriteIsOneTransferOfEightBytes : Prop :=
  ∀ (g : GlyphBuffer) (s : State), ∃ t failed,
    exec (.write g.g0 g.g1 g.g2 g.g3 g.g4 g.g5) s = .next t ∧
    t.bus.wire = s.bus.wire ++ [{ bytes := frameBytes (buildFrame g), failed := failed }] ∧
    (frameBytes (buildFrame g)).length = 8 ∧
    t.bus.report = (if failed then .failed else .completed) ∧ t.bus.outbox = s.bus.outbox ∧
    t.block = s.block ∧ t.ports = s.ports ∧ t.caller = s.caller

/-! ### The step and the sequencer (spec/44_show_request.md) -/

/-- A step runs the micro-operation that `PHASE` names. -/
def Obligations.StepRunsTheMicroOpOfThePhase : Prop :=
  ∀ (s : State) (i : Instr), s.ports.rst = false → s.block.CodesLegal → s.bus.outbox = none → s.hostMove = none →
    decode (.phase s.block.phase) = .ok i → step s = exec i s

/-- A step runs the transfer of the operation that the transport was called for, which it takes from the outbox. -/
def Obligations.StepRunsTheTransferInTheOutbox : Prop :=
  ∀ (s : State) (call : TransportCall) (i : Instr), s.ports.rst = false → s.block.CodesLegal →
    s.bus.outbox = some call → decode (.transfer call.bytes) = .ok i →
    step s = exec i { s with bus := { s.bus with outbox := none } }

/-- A host's move is a step of its own, and changes no register of the block and nothing on the wire. -/
def Obligations.HostMovesLeaveTheBlock : Prop :=
  ∀ s u : State, s.ports.rst = false → s.block.CodesLegal → s.bus.outbox = none → s.hostMove = some u →
    step s = .next u ∧ u.block = s.block ∧ u.bus.wire = s.bus.wire

/-- R186: the transition table, row by row. -/
def Obligations.TransitionTable : Prop :=
  ∀ s : State, s.Quiet → s.caller.todo = [] → s.block.Inv →
    (s.block.phase = phaseIdle → s.ports.reqValid = false → step s = .next s) ∧
    (s.block.phase = phaseIdle → s.ports.reqValid = true →
      step s = exec .load s ∧ ∃ t, step s = .next t ∧ t.block.phase = phaseCheck) ∧
    (s.block.phase = phaseCheck → legalSelector s.block.dp.toInt = true → legalSelector s.block.bl.toInt = true →
      step s = exec .check s ∧ ∃ t, step s = .next t ∧ t.block.phase = phaseOvlDp) ∧
    (s.block.phase = phaseCheck →
      (legalSelector s.block.dp.toInt = false ∨ legalSelector s.block.bl.toInt = false) →
      step s = exec .check s ∧ ∃ t, step s = .next t ∧ t.block.phase = phaseIdle ∧ t.block.err = true) ∧
    (s.block.phase = phaseOvlDp → step s = exec .ovlDp s ∧ ∃ t, step s = .next t ∧ t.block.phase = phaseOvlBat) ∧
    (s.block.phase = phaseOvlBat → step s = exec .ovlBat s ∧ ∃ t, step s = .next t ∧ t.block.phase = phasePackOpc) ∧
    (s.block.phase = phasePackOpc → step s = exec .packOpc s ∧ ∃ t, step s = .next t ∧ t.block.phase = phasePackAdr) ∧
    (s.block.phase = phasePackAdr → step s = exec .packAdr s ∧ ∃ t, step s = .next t ∧ t.block.phase = phasePackDat) ∧
    (s.block.phase = phasePackDat → s.block.idx.toNat < 5 →
      step s = exec .packDat s ∧
      ∃ t, step s = .next t ∧ t.block.phase = phasePackDat ∧ t.block.idx = s.block.idx + 1) ∧
    (s.block.phase = phasePackDat → s.block.idx = 5 →
      step s = exec .packDat s ∧ ∃ t, step s = .next t ∧ t.block.phase = phasePackPad ∧ t.block.idx = 0) ∧
    (s.block.phase = phasePackPad → step s = exec .packPad s ∧ ∃ t, step s = .next t ∧ t.block.phase = phaseEmit) ∧
    (s.block.phase = phaseEmit → step s = exec .emit s ∧ ∃ t, step s = .next t ∧ t.block.phase = phaseIdle)

/-- R188, the main theorem: whatever the host drives after the accepting LOAD, the sequencer ends with `Req` of the inputs
that LOAD sampled. -/
def Obligations.RequestComputesReq : Prop :=
  ∀ (s : State) (first : Inputs) (rest : List Inputs), s.Quiet → s.block.CodesLegal → s.block.phase = phaseIdle →
    first.reqValid = true →
    (∀ w, req first.gbIn first.dpIn.toInt first.blIn.toInt = some w → rest.length = 13 →
      ∃ t, runWith (first :: rest) s = .next t ∧ t.block.phase = phaseIdle ∧
        t.block.done = true ∧ t.block.err = false ∧ t.block.frame = w) ∧
    (req first.gbIn first.dpIn.toInt first.blIn.toInt = none → rest.length = 1 →
      ∃ t, runWith (first :: rest) s = .next t ∧ t.block.phase = phaseIdle ∧
        t.block.err = true ∧ t.block.ecode = 1 ∧ t.block.done = false ∧ t.block.frame = s.block.frame) ∧
    (req first.gbIn first.dpIn.toInt first.blIn.toInt = none ↔
      ¬(legalSelector first.dpIn.toInt = true ∧ legalSelector first.blIn.toInt = true)) ∧
    (∀ w, req first.gbIn first.dpIn.toInt first.blIn.toInt = some w →
      w = 0xA000000000000000 |||
        ((let b := first.gbIn.or (indicatorMask first.dpIn.toInt first.blIn.toInt)
          (b.g0 ++ b.g1 ++ b.g2 ++ b.g3 ++ b.g4 ++ b.g5)).setWidth 64 <<< 7))

/-- R189: the outcome of a request depends on the nine values its LOAD sampled and on nothing else. -/
def Obligations.OutcomeDependsOnTheSampledInputsOnly : Prop :=
  ∀ (s1 s2 t1 t2 : State) (first : Inputs) (rest1 rest2 : List Inputs),
    s1.Quiet → s2.Quiet → s1.block.CodesLegal → s2.block.CodesLegal →
    s1.block.phase = phaseIdle → s2.block.phase = phaseIdle → first.reqValid = true →
    rest1.length = rest2.length → runWith (first :: rest1) s1 = .next t1 → runWith (first :: rest2) s2 = .next t2 →
    rest1.length ≤ 13 →
    (legalSelector first.dpIn.toInt = true ∧ legalSelector first.blIn.toInt = true ∨ rest1.length ≤ 1) →
    t1.block.phase = t2.block.phase ∧ t1.block.done = t2.block.done ∧ t1.block.err = t2.block.err ∧
    t1.block.ecode = t2.block.ecode ∧ (t1.block.done = true → t1.block.frame = t2.block.frame)

/-- R190: a successful request takes 14 steps, one that fails CHECK takes 2. -/
def Obligations.StepCounts : Prop :=
  ∀ s : State, s.Quiet → s.block.CodesLegal → s.block.phase = phaseIdle → s.ports.reqValid = true →
    (legalSelector s.ports.dpIn.toInt = true → legalSelector s.ports.blIn.toInt = true →
      (∀ k, 1 ≤ k → k < 14 → ∃ t, runN k s = .next t ∧ t.block.busy = true) ∧
      ∃ t, runN 14 s = .next t ∧ t.block.busy = false ∧ t.block.done = true) ∧
    ((legalSelector s.ports.dpIn.toInt = false ∨ legalSelector s.ports.blIn.toInt = false) →
      (∃ t, runN 1 s = .next t ∧ t.block.busy = true) ∧
      ∃ t, runN 2 s = .next t ∧ t.block.busy = false ∧ t.block.err = true)

/-- R191: the block cannot be stuck in the middle of a request; whatever the host drives, an accepted request ends, with
`done` or with `err`, within the steps that are left. -/
def Obligations.AcceptedRequestsEnd : Prop :=
  ∀ (s : State) (inputs : List Inputs), s.Quiet → s.block.Inv → s.block.phase ≠ phaseIdle →
    inputs.length = s.block.stepsLeft →
    s.block.stepsLeft ≤ 13 ∧
    ∃ k t, k ≤ s.block.stepsLeft ∧ runWith (inputs.take k) s = .next t ∧ t.block.phase = phaseIdle ∧
      t.block.done = !t.block.err

/-- R35: while the block is busy it ignores the request port. -/
def Obligations.BusyBlockIgnoresTheRequestPort : Prop :=
  ∀ (s t : State) (i : Inputs), s.Quiet → s.block.phase ≠ phaseIdle → step s = .next t →
    step (s.drive i) = .next (t.drive i)

/-- R242, R61: from LOAD to EMIT `done` is 0 and `FRAME` is still the previous request's; a host that transmits at any moment,
between a LOAD and its EMIT or after a failed CHECK, sends whatever `FRAME` holds, and the block is unchanged: at that very
moment (`State.transmitNow`), or by the model's call `transmit`, which starts in IDLE (assumption logs 5, 15). -/
def Obligations.StaleFrameUntilEmit : Prop :=
  (∀ s : State, Reachable s → s.block.phase ≠ phaseIdle → s.block.done = false ∧ s.block.err = false) ∧
  (∀ s t : State, s.ports.rst = false → s.block.phase ≠ phaseEmit → step s = .next t →
    t.block.frame = s.block.frame) ∧
  (∀ s : State, s.Quiet → s.block.CodesLegal → s.block.framed = true →
    ∃ t failed, step s.transmitNow = .next t ∧
      t.bus.wire = s.bus.wire ++ [{ bytes := frameBytes s.block.frame, failed := failed }] ∧ t.block = s.block) ∧
  (∀ (s : State) (rest : List HostOp), s.HostFree → s.block.framed = true →
    s.caller.todo = .transmit :: rest →
    ∃ t failed, runN 2 s = .next t ∧
      t.bus.wire = s.bus.wire ++ [{ bytes := frameBytes s.block.frame, failed := failed }] ∧ t.block = s.block)

/-! ### Flags, reset, invariants (spec/10_state.md, spec/70_reset_and_hazards.md) -/

/-- R31: the fields of STATUS, BUSY exactly when PHASE is not IDLE, and nothing the host drives writes any of it. -/
def Obligations.StatusView : Prop :=
  (∀ (s : State) (i : Inputs) (op : HostOp),
    (s.drive i).block.status = s.block.status ∧ (s.enqueue op).block.status = s.block.status) ∧
  ∀ b : Block,
    b.status.extractLsb' 3 2 = b.ecode ∧ b.status.getLsbD 2 = b.err ∧ b.status.getLsbD 1 = b.done ∧
    b.status.getLsbD 0 = b.busy ∧ (b.busy = true ↔ b.phase ≠ phaseIdle)

/-- R29, R30: which micro-operations write `DONE`, `ERR` and `ECODE`, what they and reset write, and what the flags mean in a
reachable state. -/
def Obligations.FlagRules : Prop :=
  (∀ s t : State, exec .emit s = .next t → t.block.done = true) ∧
  (∀ s t : State, s.ports.reqValid = true → exec .load s = .next t →
    t.block.done = false ∧ t.block.err = false ∧ t.block.ecode = 0) ∧
  (∀ s t : State, s.ports.rst = true → step s = .next t →
    t.block.done = false ∧ t.block.err = false ∧ t.block.ecode = 0) ∧
  (∀ s t : State, exec .check s = .next t →
    if legalSelector s.block.dp.toInt = true ∧ legalSelector s.block.bl.toInt = true then
      t.block.err = s.block.err ∧ t.block.ecode = s.block.ecode
    else t.block.err = true ∧ t.block.ecode = 1) ∧
  (∀ (i : Instr) (s t : State), i ≠ .load → i ≠ .emit → exec i s = .next t → t.block.done = s.block.done) ∧
  (∀ (i : Instr) (s t : State), i ≠ .load → i ≠ .check → exec i s = .next t →
    t.block.err = s.block.err ∧ t.block.ecode = s.block.ecode) ∧
  (∀ s : State, Reachable s →
    (s.block.done = true → s.block.frame = buildFrame s.block.gb) ∧
    (s.block.ecode = 0 ∨ s.block.ecode = 1) ∧ ¬(s.block.done = true ∧ s.block.err = true))

/-- R39: the values the spec gives for reset; that `GB`, `DP`, `BL`, `ACC`, `NB` and `FRAME` hold no value is said by the model's
marks (assumption log 2), and nothing is said of the bits they hold (assumption log 1). -/
def Obligations.ResetValues : Prop :=
  State.reset.block.phase = phaseIdle ∧ State.reset.block.idx = 0 ∧ State.reset.block.done = false ∧
  State.reset.block.err = false ∧ State.reset.block.ecode = 0 ∧
  State.reset.block.loaded = false ∧ State.reset.block.framed = false ∧
  State.reset.block.reqReady = true ∧ State.reset.block.busy = false

/-- R230, R231: reset wins over everything, in every state; that it takes one step and the values of the registers R39 gives
none are the model's choices (assumption logs 6 and 1). -/
def Obligations.ResetWinsOverEverything : Prop :=
  ∀ s : State, s.ports.rst = true → ∃ t, step s = .next t ∧ t.block = State.reset.block ∧
    t.bus = s.bus ∧ t.caller = s.caller ∧
    t.ports.reqValid = s.ports.reqValid ∧ t.ports.gbIn = s.ports.gbIn ∧ t.ports.dpIn = s.ports.dpIn ∧
    t.ports.blIn = s.ports.blIn

/-- The invariant holds at reset; its clause about `NB` in IDLE rests on the value the model gives `NB` there (assumption
log 1). -/
def Obligations.ResetKeepsTheInvariant : Prop := State.reset.block.Inv

/-- Every step of every agent keeps the invariant, from every state that has it. -/
def Obligations.StepKeepsTheInvariant : Prop :=
  ∀ s t : State, s.block.Inv → step s = .next t → t.block.Inv

/-- R41: the clauses (a) to (g) hold in every state reachable from reset. -/
def Obligations.ReachableStatesMeetTheInvariants : Prop :=
  ∀ s : State, Reachable s → s.block.ManualInv

/-- R155: the bookkeeping registers take only the listed values; before the first LOAD the 0 in `NB` is the model's choice
(assumption log 1). -/
def Obligations.BookkeepingNeverWraps : Prop :=
  ∀ s : State, Reachable s →
    (s.block.nb.toNat = 0 ∨ s.block.nb.toNat = 3 ∨ s.block.nb.toNat = 9 ∨ s.block.nb.toNat = 17 ∨
      s.block.nb.toNat = 25 ∨ s.block.nb.toNat = 33 ∨ s.block.nb.toNat = 41 ∨ s.block.nb.toNat = 49 ∨
      s.block.nb.toNat = 57 ∨ s.block.nb.toNat = 64) ∧
    s.block.idx.toNat ≤ 5

/-- R40: no reachable state of a request reads a register that holds no value, and `FRAME` holds one under `DONE`; the marks that
say so (the model's own, assumption log 2) are set by LOAD, carried by EMIT, kept by every other operation, and cleared by
reset. R36, R37: the output ports show `FRAME` and `GB` while these hold a value, and the frame that `done` declares valid is
`FRAME`. -/
def Obligations.UnwrittenRegistersAreNeverRead : Prop :=
  (∀ s : State, Reachable s →
    (s.block.phase ≠ phaseIdle → s.block.loaded = true) ∧ (s.block.done = true → s.block.framed = true)) ∧
  (∀ s t : State, s.ports.reqValid = true → exec .load s = .next t →
    t.block.loaded = true ∧ t.block.framed = s.block.framed) ∧
  (∀ s t : State, exec .emit s = .next t → t.block.loaded = s.block.loaded ∧ t.block.framed = s.block.loaded) ∧
  (∀ (i : Instr) (s t : State), i ≠ .load → i ≠ .emit → exec i s = .next t → s.block.SameMarks t.block) ∧
  (∀ s t : State, s.ports.rst = true → step s = .next t → t.block.loaded = false ∧ t.block.framed = false) ∧
  (∀ s : State, (s.block.framed = true → s.frameOut = s.block.frame) ∧
    (s.block.loaded = true → ∀ i : Fin 6, s.block.gbOut i = s.block.gb.get i)) ∧
  (∀ s : State, Reachable s →
    (s.block.frameValid = true → s.frameOut = buildFrame s.block.gb) ∧
    (s.block.phase ≠ phaseIdle → ∀ i : Fin 6, s.block.gbOut i = s.block.gb.get i))

/-! ### The host side (spec/40_digit_encoder_upstream.md, spec/44_show_request.md R185) -/

/-- R105: right alignment, for every glyph table and every text of at most six glyphs. -/
def Obligations.EncodeAlignsRight : Prop :=
  ∀ (glyph : Char → Byte) (mask : Byte) (mode : Config.TruncMode) (text : List Char),
    (foldDots glyph mask text).length ≤ 6 →
    (∀ (j : Nat) (i : Fin 6), j < (foldDots glyph mask text).length →
      i.val = 6 - (foldDots glyph mask text).length + j →
      some ((encodeWith glyph mask mode text).get i) = (foldDots glyph mask text)[j]?) ∧
    (∀ i : Fin 6, i.val < 6 - (foldDots glyph mask text).length → (encodeWith glyph mask mode text).get i = 0x00) ∧
    encodeWith glyph mask mode [] = ⟨0, 0, 0, 0, 0, 0⟩

/-- R103, R104, R108: the folding law, for every glyph table. -/
def Obligations.FoldingLaw : Prop :=
  ∀ (glyph : Char → Byte) (mask : Byte) (mode : Config.TruncMode) (c d : Char), c ≠ '.' → d ≠ '.' →
    (∀ rest, foldDots glyph mask (c :: '.' :: rest) = (glyph c ||| mask) :: foldDots glyph mask rest) ∧
    (∀ rest, foldDots glyph mask (c :: d :: rest) = glyph c :: foldDots glyph mask (d :: rest)) ∧
    (∀ rest, foldDots glyph mask ('.' :: rest) = glyph '.' :: foldDots glyph mask rest) ∧
    encodeWith glyph mask mode [c, '.', d] = ⟨0, 0, 0, 0, glyph c ||| mask, glyph d⟩ ∧
    encodeWith glyph mask mode [c] = ⟨0, 0, 0, 0, 0, glyph c⟩

/-- R106: over-long text is cut, and the two readings agree on texts without a dot and on texts of at most six glyphs. -/
def Obligations.TruncationIsNotAnError : Prop :=
  ∀ (glyph : Char → Byte) (mask : Byte) (text : List Char),
    ((foldDots glyph mask text).length > 6 →
      encodeWith glyph mask .input6 text = placeRight (foldDots glyph mask (text.take 6)) ∧
      encodeWith glyph mask .glyph6 text = placeRight ((foldDots glyph mask text).take 6)) ∧
    ('.' ∉ text → ∀ mode, encodeWith glyph mask mode text = placeRight ((text.take 6).map glyph)) ∧
    ((foldDots glyph mask text).length ≤ 6 →
      encodeWith glyph mask .input6 text = encodeWith glyph mask .glyph6 text)

/-- R185: `show` with an illegal selector fails with `InvalidArgument` in its first move and transmits nothing; a selector that is
"none" or left out is -1 (R76). -/
def Obligations.ShowRejectsIllegalSelectors : Prop :=
  ∀ (s : State) (text : List Char) (dp bl : Option Int) (rest : List HostOp), s.HostFree →
    s.caller.todo = .showText text dp bl :: rest →
    ¬((dp.getD (-1) = -1 ∨ dp.getD (-1) = 0 ∨ dp.getD (-1) = 1 ∨ dp.getD (-1) = 2) ∧
      (bl.getD (-1) = -1 ∨ bl.getD (-1) = 0 ∨ bl.getD (-1) = 1 ∨ bl.getD (-1) = 2)) →
    ∃ t, step s = .next t ∧ t.block = s.block ∧ t.bus = s.bus ∧ t.ports = s.ports ∧
      t.caller.results = s.caller.results ++ [.failed .invalidArgument] ∧ t.caller.call = .idle ∧
      t.caller.todo = rest

/-- R185: `show` with legal selectors, end to end: encode, the request, one transfer of its frame, and the transport's
report passed on unchanged; a selector that is "none" or left out is -1 (R76). -/
def Obligations.ShowTransmitsTheFrame : Prop :=
  ∀ (s : State) (text : List Char) (dp bl : Option Int) (rest : List HostOp), s.HostFree →
    s.caller.todo = .showText text dp bl :: rest →
    (dp.getD (-1) = -1 ∨ dp.getD (-1) = 0 ∨ dp.getD (-1) = 1 ∨ dp.getD (-1) = 2) →
    (bl.getD (-1) = -1 ∨ bl.getD (-1) = 0 ∨ bl.getD (-1) = 1 ∨ bl.getD (-1) = 2) →
    ∃ t w failed, runN 19 s = .next t ∧ req (encodeText text) (dp.getD (-1)) (bl.getD (-1)) = some w ∧
      t.block.done = true ∧ t.block.frame = w ∧
      t.bus.wire = s.bus.wire ++ [{ bytes := frameBytes w, failed := failed }] ∧
      t.caller.results = s.caller.results ++ [if failed then .failed .transportFailure else .ok] ∧
      t.caller.call = .idle ∧ t.caller.todo = rest

/-- R175, R233: at start-up `reset()` and `initialize(config)` make the two transfers in order, and the block plays no
part. -/
def Obligations.StartUpSendsTheTwoTransfers : Prop :=
  ∀ (s : State) (rest : List HostOp), s.HostFree → s.caller.todo = .transportReset :: .initChip :: rest →
    ∃ t failed1 failed2, runN 6 s = .next t ∧
      t.bus.wire = s.bus.wire ++ [{ bytes := [0x80, 0x00], failed := failed1 },
        { bytes := [0x80, 0x22, 0x90, 0x18, 0x30], failed := failed2 }] ∧
      t.block = s.block ∧ t.caller.call = .idle ∧ t.caller.todo = rest
end

