-- ==== Sys2Proof/Laws/Glyphs.lean ====
section
/-! SUPPORT. The small lemmas of the glyph buffer, of `Append` and of the frame word. -/

namespace Sys2Proof

namespace GlyphBuffer

@[simp] theorem get_set_same (b : GlyphBuffer) (i : Fin 6) (v : Byte) : (b.set i v).get i = v := by
  match i with
  | 0 | 1 | 2 | 3 | 4 | 5 => rfl

theorem get_set_other (b : GlyphBuffer) (i j : Fin 6) (v : Byte) (h : j ≠ i) : (b.set i v).get j = b.get j := by
  match i, j with
  | 0, 0 | 1, 1 | 2, 2 | 3, 3 | 4, 4 | 5, 5 => exact absurd rfl h
  | 0, 1 | 0, 2 | 0, 3 | 0, 4 | 0, 5 | 1, 0 | 1, 2 | 1, 3 | 1, 4 | 1, 5 | 2, 0 | 2, 1 | 2, 3 | 2, 4 | 2, 5
  | 3, 0 | 3, 1 | 3, 2 | 3, 4 | 3, 5 | 4, 0 | 4, 1 | 4, 2 | 4, 3 | 4, 5 | 5, 0 | 5, 1 | 5, 2 | 5, 3 | 5, 4 => rfl

@[simp] theorem get_light_same (b : GlyphBuffer) (i : Fin 6) : (b.light i).get i = b.get i ||| 0x80 :=
  get_set_same b i _

theorem get_light_other (b : GlyphBuffer) (i j : Fin 6) (h : j ≠ i) : (b.light i).get j = b.get j :=
  get_set_other b i j _ h

@[simp] theorem get_or (a b : GlyphBuffer) (i : Fin 6) : (a.or b).get i = a.get i ||| b.get i := by
  match i with
  | 0 | 1 | 2 | 3 | 4 | 5 => rfl

/-- Two buffers with the same six bytes are the same buffer. -/
theorem eq_of_get {a b : GlyphBuffer} (h : ∀ i, a.get i = b.get i) : a = b := by
  cases a
  cases b
  exact congr (congr (congr (congr (congr (congrArg _ (h 0)) (h 1)) (h 2)) (h 3)) (h 4)) (h 5)

end GlyphBuffer

/-- The frame word as fields moved to their places (30_encoding.md R71). -/
theorem frameOfGlyphs_eq_or (g : GlyphBuffer) : frameOfGlyphs g =
    0xA000000000000000 ||| (g.g0.setWidth 64 <<< 47) ||| (g.g1.setWidth 64 <<< 39) ||| (g.g2.setWidth 64 <<< 31) |||
      (g.g3.setWidth 64 <<< 23) ||| (g.g4.setWidth 64 <<< 15) ||| (g.g5.setWidth 64 <<< 7) := by
  apply BitVec.eq_of_getLsbD_eq
  intro i hi
  simp only [frameOfGlyphs, Config.opc, Config.addr, Config.pad, BitVec.getLsbD_cast, BitVec.getLsbD_append]
  interval_cases i <;> simp

/-- Putting the eight bytes of a word together again. -/
@[simp] theorem wordOfBytes_frameBytes (w : FrameWord) :
    wordOfBytes (w.extractLsb' 56 8) (w.extractLsb' 48 8) (w.extractLsb' 40 8) (w.extractLsb' 32 8)
      (w.extractLsb' 24 8) (w.extractLsb' 16 8) (w.extractLsb' 8 8) (w.extractLsb' 0 8) = w := by
  apply BitVec.eq_of_getLsbD_eq
  intro i hi
  simp only [wordOfBytes, BitVec.getLsbD_cast, BitVec.getLsbD_append, BitVec.getLsbD_extractLsb']
  interval_cases i <;> simp

/-- Taking the eight bytes of a word put together from them. -/
@[simp] theorem frameBytes_wordOfBytes (b0 b1 b2 b3 b4 b5 b6 b7 : Byte) :
    frameBytes (wordOfBytes b0 b1 b2 b3 b4 b5 b6 b7) = [b0, b1, b2, b3, b4, b5, b6, b7] := by
  simp only [frameBytes, List.cons.injEq, and_true]
  refine ⟨?_, ?_, ?_, ?_, ?_, ?_, ?_, ?_⟩ <;>
  · apply BitVec.eq_of_getLsbD_eq
    intro i hi
    simp only [wordOfBytes, BitVec.getLsbD_extractLsb', BitVec.getLsbD_cast, BitVec.getLsbD_append]
    interval_cases i <;> simp

/-- The number eight bytes spell is the word's. -/
theorem natOfBytes_frameBytes (w : FrameWord) : natOfBytes (frameBytes w) = w.toNat := by
  have := w.isLt
  simp only [natOfBytes, frameBytes, List.foldl, BitVec.extractLsb'_toNat, Nat.shiftRight_eq_div_pow]
  omega

/-- A frame built from glyph bytes has the constant bits of a frame (30_encoding.md R72). -/
theorem frameWellFormed_frameOfGlyphs (g : GlyphBuffer) : frameWellFormed (frameOfGlyphs g) = true := by
  simp only [frameWellFormed, beq_iff_eq]
  apply BitVec.eq_of_getLsbD_eq
  intro i hi
  simp only [frameOfGlyphs, Config.opc, Config.addr, Config.pad, Config.frameMask, Config.frameMatch, BitVec.getLsbD_and,
    BitVec.getLsbD_cast, BitVec.getLsbD_append]
  interval_cases i <;> simp

end Sys2Proof
end

