-- ==== Sys2Proof/Laws/PerInstr.lean ====
section
/-! SUPPORT. A family of statements made per instruction: its bits match its row of spec/opcode_table.json, in the row's
width. -/

namespace Sys2Proof.Laws.RowMatch

/-- The width, the constant bits and their value that the opcode table gives an operation's row. -/
def row : Instr → Nat × Nat × Nat
  | .write _ _ _ _ _ _ => (64, 0xFF8000000000007F, 0xA000000000000000)
  | .load => (4, 0xF, 0x0)
  | .check => (4, 0xF, 0x1)
  | .ovlDp => (4, 0xF, 0x2)
  | .ovlBat => (4, 0xF, 0x3)
  | .packOpc => (4, 0xF, 0x4)
  | .packAdr => (4, 0xF, 0x5)
  | .packDat => (4, 0xF, 0x6)
  | .packPad => (4, 0xF, 0x7)
  | .emit => (4, 0xF, 0x8)
  | .init1 => (16, 0xFFFF, 0x8000)
  | .init2 => (40, 0xFFFFFFFFFF, 0x8022901830)

/-- The operation's word has its row's width and its row's constant bits. -/
def Statement (i : Instr) : Prop :=
  tableWord i < 2 ^ (row i).1 ∧ tableWord i &&& (row i).2.1 = (row i).2.2

theorem write (g0 g1 g2 g3 g4 g5 : Byte) : Statement (.write g0 g1 g2 g3 g4 g5) := by
  have hw : tableWord (.write g0 g1 g2 g3 g4 g5) = (frameOfGlyphs ⟨g0, g1, g2, g3, g4, g5⟩).toNat :=
    natOfBytes_frameBytes _
  have hf := frameWellFormed_frameOfGlyphs ⟨g0, g1, g2, g3, g4, g5⟩
  simp only [frameWellFormed, beq_iff_eq] at hf
  refine ⟨hw ▸ BitVec.isLt _, ?_⟩
  rw [hw]
  exact congrArg BitVec.toNat hf

theorem load : Statement .load := ⟨by decide, by decide⟩
theorem check : Statement .check := ⟨by decide, by decide⟩
theorem ovlDp : Statement .ovlDp := ⟨by decide, by decide⟩
theorem ovlBat : Statement .ovlBat := ⟨by decide, by decide⟩
theorem packOpc : Statement .packOpc := ⟨by decide, by decide⟩
theorem packAdr : Statement .packAdr := ⟨by decide, by decide⟩
theorem packDat : Statement .packDat := ⟨by decide, by decide⟩
theorem packPad : Statement .packPad := ⟨by decide, by decide⟩
theorem emit : Statement .emit := ⟨by decide, by decide⟩
theorem init1 : Statement .init1 := ⟨by decide, by decide⟩
theorem init2 : Statement .init2 := ⟨by decide, by decide⟩

end Sys2Proof.Laws.RowMatch
end

