-- ==== Sys2Proof/Laws/State.lean ====
section
/-! SUPPORT. One lemma per field per update of the state, each true by unfolding, so that no proof unfolds a record update. -/

namespace Sys2Proof.Machine


/-! ### `Block.toPhase` -/

@[simp] theorem Block.toPhase_gb (b : Block) (p : BitVec 4) : (b.toPhase p).gb = b.gb := rfl
@[simp] theorem Block.toPhase_dp (b : Block) (p : BitVec 4) : (b.toPhase p).dp = b.dp := rfl
@[simp] theorem Block.toPhase_bl (b : Block) (p : BitVec 4) : (b.toPhase p).bl = b.bl := rfl
@[simp] theorem Block.toPhase_acc (b : Block) (p : BitVec 4) : (b.toPhase p).acc = b.acc := rfl
@[simp] theorem Block.toPhase_nb (b : Block) (p : BitVec 4) : (b.toPhase p).nb = b.nb := rfl
@[simp] theorem Block.toPhase_frame (b : Block) (p : BitVec 4) : (b.toPhase p).frame = b.frame := rfl
@[simp] theorem Block.toPhase_phase (b : Block) (p : BitVec 4) : (b.toPhase p).phase = p := rfl
@[simp] theorem Block.toPhase_idx (b : Block) (p : BitVec 4) : (b.toPhase p).idx = b.idx := rfl
@[simp] theorem Block.toPhase_done (b : Block) (p : BitVec 4) : (b.toPhase p).done = b.done := rfl
@[simp] theorem Block.toPhase_err (b : Block) (p : BitVec 4) : (b.toPhase p).err = b.err := rfl
@[simp] theorem Block.toPhase_ecode (b : Block) (p : BitVec 4) : (b.toPhase p).ecode = b.ecode := rfl
@[simp] theorem Block.toPhase_loaded (b : Block) (p : BitVec 4) : (b.toPhase p).loaded = b.loaded := rfl
@[simp] theorem Block.toPhase_framed (b : Block) (p : BitVec 4) : (b.toPhase p).framed = b.framed := rfl

/-! ### `Block.accept` -/

@[simp] theorem Block.accept_gb (b : Block) (p : Ports) : (b.accept p).gb = p.gbIn := rfl
@[simp] theorem Block.accept_dp (b : Block) (p : Ports) : (b.accept p).dp = p.dpIn := rfl
@[simp] theorem Block.accept_bl (b : Block) (p : Ports) : (b.accept p).bl = p.blIn := rfl
@[simp] theorem Block.accept_acc (b : Block) (p : Ports) : (b.accept p).acc = 0 := rfl
@[simp] theorem Block.accept_nb (b : Block) (p : Ports) : (b.accept p).nb = 0 := rfl
@[simp] theorem Block.accept_frame (b : Block) (p : Ports) : (b.accept p).frame = b.frame := rfl
@[simp] theorem Block.accept_phase (b : Block) (p : Ports) : (b.accept p).phase = phaseCheck := rfl
@[simp] theorem Block.accept_idx (b : Block) (p : Ports) : (b.accept p).idx = 0 := rfl
@[simp] theorem Block.accept_done (b : Block) (p : Ports) : (b.accept p).done = false := rfl
@[simp] theorem Block.accept_err (b : Block) (p : Ports) : (b.accept p).err = false := rfl
@[simp] theorem Block.accept_ecode (b : Block) (p : Ports) : (b.accept p).ecode = 0 := rfl
@[simp] theorem Block.accept_loaded (b : Block) (p : Ports) : (b.accept p).loaded = true := rfl
@[simp] theorem Block.accept_framed (b : Block) (p : Ports) : (b.accept p).framed = b.framed := rfl

/-! ### `Block.raise` -/

@[simp] theorem Block.raise_gb (b : Block) (e : ErrorKind) : (b.raise e).gb = b.gb := rfl
@[simp] theorem Block.raise_dp (b : Block) (e : ErrorKind) : (b.raise e).dp = b.dp := rfl
@[simp] theorem Block.raise_bl (b : Block) (e : ErrorKind) : (b.raise e).bl = b.bl := rfl
@[simp] theorem Block.raise_acc (b : Block) (e : ErrorKind) : (b.raise e).acc = b.acc := rfl
@[simp] theorem Block.raise_nb (b : Block) (e : ErrorKind) : (b.raise e).nb = b.nb := rfl
@[simp] theorem Block.raise_frame (b : Block) (e : ErrorKind) : (b.raise e).frame = b.frame := rfl
@[simp] theorem Block.raise_phase (b : Block) (e : ErrorKind) : (b.raise e).phase = phaseIdle := rfl
@[simp] theorem Block.raise_idx (b : Block) (e : ErrorKind) : (b.raise e).idx = b.idx := rfl
@[simp] theorem Block.raise_done (b : Block) (e : ErrorKind) : (b.raise e).done = b.done := rfl
@[simp] theorem Block.raise_err (b : Block) (e : ErrorKind) : (b.raise e).err = true := rfl
@[simp] theorem Block.raise_ecode (b : Block) (e : ErrorKind) : (b.raise e).ecode = e.code := rfl
@[simp] theorem Block.raise_loaded (b : Block) (e : ErrorKind) : (b.raise e).loaded = b.loaded := rfl
@[simp] theorem Block.raise_framed (b : Block) (e : ErrorKind) : (b.raise e).framed = b.framed := rfl

/-! ### `Block.light` -/

@[simp] theorem Block.light_gb (b : Block) (i : Fin 6) : (b.light i).gb = b.gb.light i := rfl
@[simp] theorem Block.light_dp (b : Block) (i : Fin 6) : (b.light i).dp = b.dp := rfl
@[simp] theorem Block.light_bl (b : Block) (i : Fin 6) : (b.light i).bl = b.bl := rfl
@[simp] theorem Block.light_acc (b : Block) (i : Fin 6) : (b.light i).acc = b.acc := rfl
@[simp] theorem Block.light_nb (b : Block) (i : Fin 6) : (b.light i).nb = b.nb := rfl
@[simp] theorem Block.light_frame (b : Block) (i : Fin 6) : (b.light i).frame = b.frame := rfl
@[simp] theorem Block.light_phase (b : Block) (i : Fin 6) : (b.light i).phase = b.phase := rfl
@[simp] theorem Block.light_idx (b : Block) (i : Fin 6) : (b.light i).idx = b.idx := rfl
@[simp] theorem Block.light_done (b : Block) (i : Fin 6) : (b.light i).done = b.done := rfl
@[simp] theorem Block.light_err (b : Block) (i : Fin 6) : (b.light i).err = b.err := rfl
@[simp] theorem Block.light_ecode (b : Block) (i : Fin 6) : (b.light i).ecode = b.ecode := rfl
@[simp] theorem Block.light_loaded (b : Block) (i : Fin 6) : (b.light i).loaded = b.loaded := rfl
@[simp] theorem Block.light_framed (b : Block) (i : Fin 6) : (b.light i).framed = b.framed := rfl

/-! ### `Block.pack` -/

@[simp] theorem Block.pack_gb {w : Nat} (b : Block) (v : BitVec w) : (b.pack v).gb = b.gb := rfl
@[simp] theorem Block.pack_dp {w : Nat} (b : Block) (v : BitVec w) : (b.pack v).dp = b.dp := rfl
@[simp] theorem Block.pack_bl {w : Nat} (b : Block) (v : BitVec w) : (b.pack v).bl = b.bl := rfl
@[simp] theorem Block.pack_acc {w : Nat} (b : Block) (v : BitVec w) : (b.pack v).acc = append b.acc v := rfl
@[simp] theorem Block.pack_nb {w : Nat} (b : Block) (v : BitVec w) : (b.pack v).nb = b.nb + BitVec.ofNat 7 w := rfl
@[simp] theorem Block.pack_frame {w : Nat} (b : Block) (v : BitVec w) : (b.pack v).frame = b.frame := rfl
@[simp] theorem Block.pack_phase {w : Nat} (b : Block) (v : BitVec w) : (b.pack v).phase = b.phase := rfl
@[simp] theorem Block.pack_idx {w : Nat} (b : Block) (v : BitVec w) : (b.pack v).idx = b.idx := rfl
@[simp] theorem Block.pack_done {w : Nat} (b : Block) (v : BitVec w) : (b.pack v).done = b.done := rfl
@[simp] theorem Block.pack_err {w : Nat} (b : Block) (v : BitVec w) : (b.pack v).err = b.err := rfl
@[simp] theorem Block.pack_ecode {w : Nat} (b : Block) (v : BitVec w) : (b.pack v).ecode = b.ecode := rfl
@[simp] theorem Block.pack_loaded {w : Nat} (b : Block) (v : BitVec w) : (b.pack v).loaded = b.loaded := rfl
@[simp] theorem Block.pack_framed {w : Nat} (b : Block) (v : BitVec w) : (b.pack v).framed = b.framed := rfl

/-! ### `Block.setIdx` -/

@[simp] theorem Block.setIdx_gb (b : Block) (i : BitVec 3) : (b.setIdx i).gb = b.gb := rfl
@[simp] theorem Block.setIdx_dp (b : Block) (i : BitVec 3) : (b.setIdx i).dp = b.dp := rfl
@[simp] theorem Block.setIdx_bl (b : Block) (i : BitVec 3) : (b.setIdx i).bl = b.bl := rfl
@[simp] theorem Block.setIdx_acc (b : Block) (i : BitVec 3) : (b.setIdx i).acc = b.acc := rfl
@[simp] theorem Block.setIdx_nb (b : Block) (i : BitVec 3) : (b.setIdx i).nb = b.nb := rfl
@[simp] theorem Block.setIdx_frame (b : Block) (i : BitVec 3) : (b.setIdx i).frame = b.frame := rfl
@[simp] theorem Block.setIdx_phase (b : Block) (i : BitVec 3) : (b.setIdx i).phase = b.phase := rfl
@[simp] theorem Block.setIdx_idx (b : Block) (i : BitVec 3) : (b.setIdx i).idx = i := rfl
@[simp] theorem Block.setIdx_done (b : Block) (i : BitVec 3) : (b.setIdx i).done = b.done := rfl
@[simp] theorem Block.setIdx_err (b : Block) (i : BitVec 3) : (b.setIdx i).err = b.err := rfl
@[simp] theorem Block.setIdx_ecode (b : Block) (i : BitVec 3) : (b.setIdx i).ecode = b.ecode := rfl
@[simp] theorem Block.setIdx_loaded (b : Block) (i : BitVec 3) : (b.setIdx i).loaded = b.loaded := rfl
@[simp] theorem Block.setIdx_framed (b : Block) (i : BitVec 3) : (b.setIdx i).framed = b.framed := rfl

/-! ### `Block.present` -/

@[simp] theorem Block.present_gb (b : Block) : (b.present).gb = b.gb := rfl
@[simp] theorem Block.present_dp (b : Block) : (b.present).dp = b.dp := rfl
@[simp] theorem Block.present_bl (b : Block) : (b.present).bl = b.bl := rfl
@[simp] theorem Block.present_acc (b : Block) : (b.present).acc = b.acc := rfl
@[simp] theorem Block.present_nb (b : Block) : (b.present).nb = b.nb := rfl
@[simp] theorem Block.present_frame (b : Block) : (b.present).frame = b.acc := rfl
@[simp] theorem Block.present_phase (b : Block) : (b.present).phase = b.phase := rfl
@[simp] theorem Block.present_idx (b : Block) : (b.present).idx = b.idx := rfl
@[simp] theorem Block.present_done (b : Block) : (b.present).done = true := rfl
@[simp] theorem Block.present_err (b : Block) : (b.present).err = b.err := rfl
@[simp] theorem Block.present_ecode (b : Block) : (b.present).ecode = b.ecode := rfl
@[simp] theorem Block.present_loaded (b : Block) : (b.present).loaded = b.loaded := rfl
@[simp] theorem Block.present_framed (b : Block) : (b.present).framed = b.loaded := rfl

/-! ### `State.withBlock` -/

@[simp] theorem State.withBlock_block (s : State) (b : Block) : (s.withBlock b).block = b := rfl
@[simp] theorem State.withBlock_ports (s : State) (b : Block) : (s.withBlock b).ports = s.ports := rfl
@[simp] theorem State.withBlock_bus (s : State) (b : Block) : (s.withBlock b).bus = s.bus := rfl
@[simp] theorem State.withBlock_caller (s : State) (b : Block) : (s.withBlock b).caller = s.caller := rfl

/-! ### `State.resetBlock` -/

@[simp] theorem State.resetBlock_block (s : State) : (s.resetBlock).block = Block.reset := rfl
@[simp] theorem State.resetBlock_ports (s : State) : (s.resetBlock).ports = { s.ports with rst := false } := rfl
@[simp] theorem State.resetBlock_bus (s : State) : (s.resetBlock).bus = s.bus := rfl
@[simp] theorem State.resetBlock_caller (s : State) : (s.resetBlock).caller = s.caller := rfl

/-! ### `State.clockOut` -/

@[simp] theorem State.clockOut_block (s : State) (bytes : List Byte) : (s.clockOut bytes).block = s.block := rfl
@[simp] theorem State.clockOut_ports (s : State) (bytes : List Byte) : (s.clockOut bytes).ports = s.ports := rfl
@[simp] theorem State.clockOut_caller (s : State) (bytes : List Byte) : (s.clockOut bytes).caller = s.caller := rfl
@[simp] theorem State.clockOut_outbox (s : State) (bytes : List Byte) :
    (s.clockOut bytes).bus.outbox = s.bus.outbox := rfl
@[simp] theorem State.clockOut_wire (s : State) (bytes : List Byte) :
    (s.clockOut bytes).bus.wire =
      s.bus.wire ++ [{ bytes := bytes, failed := Config.transferFails s.bus.wire.length }] := rfl
@[simp] theorem State.clockOut_report (s : State) (bytes : List Byte) :
    (s.clockOut bytes).bus.report =
      if Config.transferFails s.bus.wire.length then .failed else .completed := rfl

/-! ### `State.takeOutbox` -/

@[simp] theorem State.takeOutbox_block (s : State) : (s.takeOutbox).block = s.block := rfl
@[simp] theorem State.takeOutbox_ports (s : State) : (s.takeOutbox).ports = s.ports := rfl
@[simp] theorem State.takeOutbox_bus (s : State) : (s.takeOutbox).bus = { s.bus with outbox := none } := rfl
@[simp] theorem State.takeOutbox_caller (s : State) : (s.takeOutbox).caller = s.caller := rfl

/-! ### `State.handOver` -/

@[simp] theorem State.handOver_block (s : State) (call : TransportCall) : (s.handOver call).block = s.block := rfl
@[simp] theorem State.handOver_ports (s : State) (call : TransportCall) : (s.handOver call).ports = s.ports := rfl
@[simp] theorem State.handOver_bus (s : State) (call : TransportCall) :
    (s.handOver call).bus = { s.bus with outbox := some call, report := .none } := rfl
@[simp] theorem State.handOver_caller (s : State) (call : TransportCall) :
    (s.handOver call).caller = { s.caller with call := .sending } := rfl

/-! ### `State.finish` -/

@[simp] theorem State.finish_block (s : State) (r : HostResult) : (s.finish r).block = s.block := rfl
@[simp] theorem State.finish_ports (s : State) (r : HostResult) : (s.finish r).ports = s.ports := rfl
@[simp] theorem State.finish_bus (s : State) (r : HostResult) : (s.finish r).bus = s.bus := rfl
@[simp] theorem State.finish_caller (s : State) (r : HostResult) :
    (s.finish r).caller = { s.caller with call := .idle, results := s.caller.results ++ [r] } := rfl

/-! ### `State.putRequest` -/

@[simp] theorem State.putRequest_block (s : State) (gb : GlyphBuffer) (dp bl : Sel) (after : AfterRequest) :
    (s.putRequest gb dp bl after).block = s.block := rfl
@[simp] theorem State.putRequest_ports (s : State) (gb : GlyphBuffer) (dp bl : Sel) (after : AfterRequest) :
    (s.putRequest gb dp bl after).ports = { s.ports with reqValid := true, gbIn := gb, dpIn := dp, blIn := bl } := rfl
@[simp] theorem State.putRequest_bus (s : State) (gb : GlyphBuffer) (dp bl : Sel) (after : AfterRequest) :
    (s.putRequest gb dp bl after).bus = s.bus := rfl
@[simp] theorem State.putRequest_caller (s : State) (gb : GlyphBuffer) (dp bl : Sel) (after : AfterRequest) :
    (s.putRequest gb dp bl after).caller = { s.caller with call := .presented after } := rfl

/-! ### `State.withdraw` -/

@[simp] theorem State.withdraw_block (s : State) (after : AfterRequest) : (s.withdraw after).block = s.block := rfl
@[simp] theorem State.withdraw_ports (s : State) (after : AfterRequest) :
    (s.withdraw after).ports = { s.ports with reqValid := false } := rfl
@[simp] theorem State.withdraw_bus (s : State) (after : AfterRequest) : (s.withdraw after).bus = s.bus := rfl
@[simp] theorem State.withdraw_caller (s : State) (after : AfterRequest) :
    (s.withdraw after).caller = { s.caller with call := .awaiting after } := rfl

/-! ### `State.drive` -/

@[simp] theorem State.drive_block (s : State) (i : Inputs) : (s.drive i).block = s.block := rfl
@[simp] theorem State.drive_ports (s : State) (i : Inputs) :
    (s.drive i).ports = { s.ports with reqValid := i.reqValid, gbIn := i.gbIn, dpIn := i.dpIn, blIn := i.blIn } := rfl
@[simp] theorem State.drive_bus (s : State) (i : Inputs) : (s.drive i).bus = s.bus := rfl
@[simp] theorem State.drive_caller (s : State) (i : Inputs) : (s.drive i).caller = s.caller := rfl

/-! ### `State.driveRst` -/

@[simp] theorem State.driveRst_block (s : State) (level : Bool) : (s.driveRst level).block = s.block := rfl
@[simp] theorem State.driveRst_ports (s : State) (level : Bool) :
    (s.driveRst level).ports = { s.ports with rst := level } := rfl
@[simp] theorem State.driveRst_bus (s : State) (level : Bool) : (s.driveRst level).bus = s.bus := rfl
@[simp] theorem State.driveRst_caller (s : State) (level : Bool) : (s.driveRst level).caller = s.caller := rfl

/-! ### `State.enqueue` -/

@[simp] theorem State.enqueue_block (s : State) (op : HostOp) : (s.enqueue op).block = s.block := rfl
@[simp] theorem State.enqueue_ports (s : State) (op : HostOp) : (s.enqueue op).ports = s.ports := rfl
@[simp] theorem State.enqueue_bus (s : State) (op : HostOp) : (s.enqueue op).bus = s.bus := rfl
@[simp] theorem State.enqueue_caller (s : State) (op : HostOp) :
    (s.enqueue op).caller = { s.caller with todo := s.caller.todo ++ [op] } := rfl

/-! ### `State.transmitNow` -/

/-- With the transport free and no call in progress, the moment's `frame_out` is handed over. -/
theorem State.transmitNow_free {s : State} (ho : s.bus.outbox = none) (hc : s.caller.call = .idle) :
    s.transmitNow = s.handOver (.transmit s.frameOut) := if_pos ⟨ho, hc⟩
@[simp] theorem State.transmitNow_block (s : State) : s.transmitNow.block = s.block := by
  unfold transmitNow
  split <;> rfl
@[simp] theorem State.transmitNow_ports (s : State) : s.transmitNow.ports = s.ports := by
  unfold transmitNow
  split <;> rfl
@[simp] theorem State.transmitNow_wire (s : State) : s.transmitNow.bus.wire = s.bus.wire := by
  unfold transmitNow
  split <;> rfl

/-! ### What the output ports show -/

@[simp] theorem State.frameOut_framed {s : State} (h : s.block.framed = true) : s.frameOut = s.block.frame := if_pos h
@[simp] theorem Block.gbOut_loaded {b : Block} (h : b.loaded = true) (i : Fin 6) : b.gbOut i = b.gb.get i := if_pos h

end Sys2Proof.Machine
end

