-- ==== Sys2Proof/Laws/Step.lean ====
section
/-! SUPPORT. What a move can do, said once: the inversion lemmas of the host's move, of the turn and of the step. -/

namespace Sys2Proof.Machine

/-- A call's first move touches no register of the block and nothing on the wire. -/
theorem State.startCall_block (s : State) (op : HostOp) :
    (s.startCall op).block = s.block ∧ (s.startCall op).bus.wire = s.bus.wire := by
  cases op with
  | blockReset => exact ⟨rfl, rfl⟩
  | transportReset => exact ⟨rfl, rfl⟩
  | initChip => exact ⟨rfl, rfl⟩
  | request gb dp bl => exact ⟨rfl, rfl⟩
  | showText text dp bl =>
    simp only [startCall]
    split <;> exact ⟨rfl, rfl⟩
  | transmit => exact ⟨rfl, rfl⟩

/-- Reading the result touches no register of the block and nothing on the wire. -/
theorem State.readResult_block (s : State) (after : AfterRequest) :
    (s.readResult after).block = s.block ∧ (s.readResult after).bus.wire = s.bus.wire := by
  simp only [readResult]
  split
  · cases after <;> exact ⟨rfl, rfl⟩
  · split <;> exact ⟨rfl, rfl⟩

/-- The host's moves, one case per state of its call. -/
theorem State.hostMove_cases {s u : State} (h : s.hostMove = some u) :
    (∃ op rest, s.caller.call = .idle ∧ s.caller.todo = op :: rest ∧ s.block.phase = phaseIdle ∧
      s.ports.reqValid = false ∧ u = { s with caller := { s.caller with todo := rest } }.startCall op) ∨
    (∃ after, s.caller.call = .presented after ∧ s.block.busy = true ∧ u = s.withdraw after) ∨
    (∃ after, s.caller.call = .awaiting after ∧ s.block.busy = false ∧ u = s.readResult after) ∨
    (s.caller.call = .sending ∧ s.bus.report = .completed ∧ u = s.finish .ok) ∨
    (s.caller.call = .sending ∧ s.bus.report = .failed ∧ u = s.finish (.failed .transportFailure)) := by
  unfold hostMove at h
  split at h
  · rename_i hc
    split at h
    · cases h
    · rename_i op rest ht
      split at h
      · rename_i hr
        simp only [Block.reqReady, Bool.and_eq_true, beq_iff_eq, Bool.not_eq_true'] at hr
        exact .inl ⟨op, rest, hc, ht, hr.1, hr.2, by simpa using h.symm⟩
      · cases h
  · rename_i after hc
    split at h
    · exact .inr (.inl ⟨after, hc, ‹_›, by simpa using h.symm⟩)
    · cases h
  · rename_i after hc
    split at h
    · cases h
    · exact .inr (.inr (.inl ⟨after, hc, Bool.eq_false_iff.mpr ‹¬_›, by simpa using h.symm⟩))
  · rename_i hc
    split at h
    · cases h
    · exact .inr (.inr (.inr (.inl ⟨hc, ‹_›, by simpa using h.symm⟩)))
    · exact .inr (.inr (.inr (.inr ⟨hc, ‹_›, by simpa using h.symm⟩)))

/-- A quiet host has no move while the block is busy or a request stands on the port. -/
theorem State.hostMove_none {s : State} (hc : s.caller.call = .idle)
    (h : s.block.phase ≠ phaseIdle ∨ s.ports.reqValid = true ∨ s.caller.todo = []) : s.hostMove = none := by
  unfold hostMove
  simp only [hc]
  split
  · rfl
  · rename_i op rest ht
    rw [if_neg]
    rcases h with h | h | h
    · simpa [Block.reqReady] using fun hp => absurd hp h
    · simp [h]
    · simp [h] at ht

/-- Whose turn it is when an operation runs. -/
theorem State.turn_run {s u : State} {i : Instr} (h : s.turn = .run i u) :
    s.ports.rst = false ∧ s.block.unusedCode = none ∧
    ((∃ call, s.bus.outbox = some call ∧ decodeTransfer call.bytes = .ok i ∧ u = s.takeOutbox) ∨
     (s.bus.outbox = none ∧ s.hostMove = none ∧ decodePhase s.block.phase = .ok i ∧ u = s)) := by
  unfold turn at h
  split at h
  · cases h
  · rename_i hr
    refine ⟨by simpa using hr, ?_⟩
    split at h
    · cases h
    · rename_i hu
      refine ⟨hu, ?_⟩
      split at h
      · rename_i call ho
        split at h
        · rename_i j hd
          cases h
          exact .inl ⟨call, ho, hd, rfl⟩
        · cases h
      · rename_i ho
        split at h
        · cases h
        · rename_i hm
          split at h
          · rename_i j hd
            cases h
            exact .inr ⟨ho, hm, hd, rfl⟩
          · cases h

/-- Whose turn it is when the transport sends bytes that are no row of the opcode table. -/
theorem State.turn_send {s u : State} {bytes : List Byte} (h : s.turn = .send bytes u) :
    s.ports.rst = false ∧ s.block.unusedCode = none ∧
    ∃ call, s.bus.outbox = some call ∧ bytes = call.bytes ∧ u = s.takeOutbox := by
  unfold turn at h
  split at h
  · cases h
  · rename_i hr
    refine ⟨by simpa using hr, ?_⟩
    split at h
    · cases h
    · rename_i hu
      refine ⟨hu, ?_⟩
      split at h
      · rename_i call ho
        split at h
        · cases h
        · cases h
          exact ⟨call, ho, rfl, rfl⟩
      · split at h
        · cases h
        · split at h <;> cases h

/-- Whose turn it is when the host moves. -/
theorem State.turn_host {s u : State} (h : s.turn = .host u) :
    s.ports.rst = false ∧ s.block.unusedCode = none ∧ s.bus.outbox = none ∧ s.hostMove = some u := by
  unfold turn at h
  split at h
  · cases h
  · rename_i hr
    split at h
    · cases h
    · rename_i hu
      split at h
      · split at h <;> cases h
      · rename_i ho
        split at h
        · rename_i t hm
          cases h
          exact ⟨by simpa using hr, hu, ho, hm⟩
        · split at h <;> cases h

/-- Everything a step that answers a next state can be: the block's reset, a transfer that is a row of the opcode table, any
other bytes given to the transport, a micro-operation, or a move of the host. -/
theorem step_cases {s t : State} (h : step s = .next t) :
    (s.ports.rst = true ∧ t = s.resetBlock) ∨
    (∃ i call, s.ports.rst = false ∧ s.block.unusedCode = none ∧ s.bus.outbox = some call ∧
      decodeTransfer call.bytes = .ok i ∧ exec i s.takeOutbox = .next t) ∨
    (∃ call, s.ports.rst = false ∧ s.block.unusedCode = none ∧ s.bus.outbox = some call ∧
      t = s.takeOutbox.clockOut call.bytes) ∨
    (∃ i, s.ports.rst = false ∧ s.block.unusedCode = none ∧ s.bus.outbox = none ∧ s.hostMove = none ∧
      decodePhase s.block.phase = .ok i ∧ exec i s = .next t) ∨
    (s.ports.rst = false ∧ s.block.unusedCode = none ∧ s.bus.outbox = none ∧ s.hostMove = some t) := by
  unfold step at h
  split at h
  · rename_i ht
    refine .inl ⟨?_, by simpa using h.symm⟩
    unfold State.turn at ht
    split at ht
    · assumption
    · split at ht
      · cases ht
      · split at ht
        · split at ht <;> cases ht
        · split at ht
          · cases ht
          · split at ht <;> cases ht
  · cases h
  · rename_i i u ht
    obtain ⟨hr, hu, ⟨call, ho, hd, rfl⟩ | ⟨ho, hm, hd, rfl⟩⟩ := State.turn_run ht
    · exact .inr (.inl ⟨i, call, hr, hu, ho, hd, h⟩)
    · exact .inr (.inr (.inr (.inl ⟨i, hr, hu, ho, hm, hd, h⟩)))
  · rename_i bytes u ht
    obtain ⟨hr, hu, call, ho, rfl, rfl⟩ := State.turn_send ht
    exact .inr (.inr (.inl ⟨call, hr, hu, ho, by simpa using h.symm⟩))
  · rename_i u ht
    obtain ⟨hr, hu, ho, hm⟩ := State.turn_host ht
    cases h
    exact .inr (.inr (.inr (.inr ⟨hr, hu, ho, hm⟩)))

/-- A transfer is one of the three operations of the bus. -/
theorem decodeTransfer_cases {bytes : List Byte} {i : Instr} (h : decodeTransfer bytes = .ok i) :
    i = .init1 ∨ i = .init2 ∨ ∃ g : GlyphBuffer, i = Instr.ofGlyphs g := by
  unfold decodeTransfer at h
  split at h
  · split at h <;> cases h
    exact .inl rfl
  · split at h <;> cases h
    exact .inr (.inl rfl)
  · unfold decodeFrame at h
    split at h
    · cases h
      exact .inr (.inr ⟨_, rfl⟩)
    · cases h
  · cases h

/-- The three operations of the bus are the clocking out of some bytes. -/
theorem exec_transfer {bytes : List Byte} {i : Instr} (h : decodeTransfer bytes = .ok i) (s : State) :
    ∃ out, exec i s = .next (s.clockOut out) := by
  obtain rfl | rfl | ⟨g, rfl⟩ := decodeTransfer_cases h
  · exact ⟨_, rfl⟩
  · exact ⟨_, rfl⟩
  · exact ⟨_, rfl⟩

end Sys2Proof.Machine
end

