-- ==== Sys2Proof/Laws/Reachable.lean ====
section
/-! SUPPORT. Runs lead from reachable states to reachable states. -/

namespace Sys2Proof.Machine

/-- A run under changing inputs ends in a reachable state. -/
theorem Reachable.runWith {s t : State} (is : List Inputs) (h : Reachable s) (hr : Machine.runWith is s = .next t) :
    Reachable t := by
  induction is generalizing s with
  | nil =>
    cases hr
    exact h
  | cons i is ih =>
    simp only [Machine.runWith] at hr
    split at hr
    · exact ih ((h.drive i).step ‹_›) hr
    · cases hr
    · cases hr

/-- A property that holds at reset, that every step keeps, and that what the host drives cannot break, holds in every reachable
state. -/
theorem Reachable.invariant {P : Block → Prop} (h0 : P State.reset.block)
    (hs : ∀ s t : State, P s.block → Machine.step s = .next t → P t.block) {s : State} (h : Reachable s) : P s.block := by
  induction h with
  | reset => exact h0
  | step _ hstep ih => exact hs _ _ ih hstep
  | drive _ _ ih => exact ih
  | driveRst _ _ ih => exact ih
  | enqueue _ _ ih => exact ih
  | transmitNow _ ih => simpa using ih

end Sys2Proof.Machine
end

