-- ==== Sys2Proof/Tests/Slice0.lean ====
section
/-! SUPPORT. Small tests of one step or one function each, with expected values from spec/95_test_vectors.md and the rules named, and
one witness for the hypotheses of each statement. -/

namespace Sys2Proof.Tests

open Sys2Proof Sys2Proof.Machine

/-! ### Helpers -/

/-- The reset state with other registers. -/
def stateOf (b : Block) : State := { State.reset with block := b }

/-- The request of program P2, `REQ [12,34,56,78,1A,3C] dp=0 bl=2` (95_test_vectors.md). -/
def p2 : Inputs := { reqValid := true, gbIn := ⟨0x12, 0x34, 0x56, 0x78, 0x1A, 0x3C⟩, dpIn := 0x00, blIn := 0x02 }

/-- The first request of program P3, `dp=3`, which is illegal. -/
def p3 : Inputs := { p2 with dpIn := 0x03, blIn := 0x00 }

/-- The block after P2's LOAD. -/
def p2Block : Block := Block.reset.accept (State.reset.drive p2).ports

/-- The block after P3's LOAD. -/
def p3Block : Block := Block.reset.accept (State.reset.drive p3).ports

/-- P2's overlaid buffer. -/
def p2Overlaid : GlyphBuffer := ⟨0x92, 0x34, 0x56, 0xF8, 0x9A, 0xBC⟩

/-- P2's block on entry to PACK.OPC. -/
def p2Packing : Block := { p2Block with gb := p2Overlaid, phase := phasePackOpc }

/-- The state `n` steps after reset, with P2's request standing on the port. -/
def afterSteps (n : Nat) : State :=
  match runWith (List.replicate n p2) State.reset with
  | .next t => t
  | .fault _ => State.reset
  | .refused _ => State.reset

theorem afterSteps_reachable (n : Nat) : Reachable (afterSteps n) := by
  unfold afterSteps
  split
  · exact Reachable.reset.runWith _ ‹_›
  · exact .reset
  · exact .reset

/-- The registers of the next state of a step or of an operation. -/
def blockOf (o : Host.Outcome State Fault Refusal) : Option Block :=
  match o with
  | .next t => some t.block
  | .fault _ => none
  | .refused _ => none

/-- The bytes of the transfers on the wire in the next state. -/
def wireOf (o : Host.Outcome State Fault Refusal) : Option (List (List Byte)) :=
  match o with
  | .next t => some (t.bus.wire.map Transfer.bytes)
  | .fault _ => none
  | .refused _ => none

/-- The refusal of a step. -/
def refusalOf (o : Host.Outcome State Fault Refusal) : Option Refusal :=
  match o with
  | .next _ => none
  | .fault _ => none
  | .refused r => some r

/-! ### WellFormed: each check refuses an ill-formed term -/

/-- "0xE000000000000000 (opcode 111)" (95_test_vectors.md section 2.3). -/
theorem test_wellFormed_refuses_opcode : frameWellFormed 0xE000000000000000 = false := by decide
/-- "0xA080000000000000 (address 000001)". -/
theorem test_wellFormed_refuses_address : frameWellFormed 0xA080000000000000 = false := by decide
/-- "0xA000000000000001 (padding not zero)". -/
theorem test_wellFormed_refuses_padding : frameWellFormed 0xA000000000000001 = false := by decide
theorem test_wellFormed_refuses_phase_9 : Code.wellFormed (.phase 9) = false := by decide
theorem test_wellFormed_refuses_idx_6 : idxLegal 6 = false := by decide
theorem test_wellFormed_refuses_ecode_3 : ecodeLegal 3 = false := by decide
theorem test_wellFormed_refuses_transfer : Code.wellFormed (.transfer [0x80, 0x01]) = false := by decide
theorem test_wellFormed_write : Instr.wellFormed (.write 0xFF 0xFF 0xFF 0xFF 0xFF 0xFF) = true := by decide

/-! ### Decoding: words written out bit by bit from 30_encoding.md R70, R78, R84 -/

theorem test_decode_write :
    decodeTableWord 64 0b1010000001001001000110100010101101111100010011010101111000000000 =
      some (.write 0x92 0x34 0x56 0xF8 0x9A 0xBC) := by decide
theorem test_decode_load : decodeTableWord 4 0b0000 = some .load := by decide
theorem test_decode_check : decodeTableWord 4 0b0001 = some .check := by decide
theorem test_decode_ovlDp : decodeTableWord 4 0b0010 = some .ovlDp := by decide
theorem test_decode_ovlBat : decodeTableWord 4 0b0011 = some .ovlBat := by decide
theorem test_decode_packOpc : decodeTableWord 4 0b0100 = some .packOpc := by decide
theorem test_decode_packAdr : decodeTableWord 4 0b0101 = some .packAdr := by decide
theorem test_decode_packDat : decodeTableWord 4 0b0110 = some .packDat := by decide
theorem test_decode_packPad : decodeTableWord 4 0b0111 = some .packPad := by decide
theorem test_decode_emit : decodeTableWord 4 0b1000 = some .emit := by decide
theorem test_decode_init1 : decodeTableWord 16 0b1000000000000000 = some .init1 := by decide
theorem test_decode_init2 :
    decodeTableWord 40 0b1000000000100010100100000001100000110000 = some .init2 := by decide
/-- "PHASE codes 9 to 15" have no meaning (R82). -/
theorem test_decode_refuses_phase_9 : decode (.phase 9) = .error (.unusedPhase 9) := by decide
/-- Three bytes are no transfer (R84). -/
theorem test_decode_refuses_length : decode (.transfer [0x80, 0x22, 0x90]) = .error (.badLength 3) := by decide

/-! ### The overlay engine -/

/-- R120's example. -/
theorem test_load_example : blockOf (exec .load (State.reset.drive p2)) =
    some { Block.reset with
      gb := ⟨0x12, 0x34, 0x56, 0x78, 0x1A, 0x3C⟩, dp := 0, bl := 2, phase := phaseCheck, loaded := true } := by decide
/-- R121's example: `DP = 3`, `BL = -1`. -/
theorem test_check_fails : blockOf (exec .check (stateOf { p3Block with bl := 0xFF })) =
    some { p3Block with bl := 0xFF, err := true, ecode := 1, phase := phaseIdle } := by decide
/-- -2 is not "none" (R121). -/
theorem test_check_minus_two : (blockOf (exec .check (stateOf { p2Block with dp := 0xFE }))).map Block.err = some true := by
  decide
/-- R122's example. -/
theorem test_ovlDp_example : (blockOf (exec .ovlDp (stateOf p2Block))).map (fun b => b.gb.g0) = some 0x92 := by decide
/-- P4 request 1: `dp = 1` sets bit 7 of `GB[1]`. -/
theorem test_ovlDp_one : (blockOf (exec .ovlDp (stateOf { p2Block with dp := 1 }))).map (fun b => b.gb) =
    some ⟨0x12, 0xB4, 0x56, 0x78, 0x1A, 0x3C⟩ := by decide
/-- R123's example, `BL = 1`. -/
theorem test_ovlBat_one : (blockOf (exec .ovlBat (stateOf { p2Block with bl := 1 }))).map (fun b => b.gb) =
    some ⟨0x12, 0x34, 0x56, 0xF8, 0x9A, 0x3C⟩ := by decide
/-- `BL = 0` is not "none" (R123). -/
theorem test_ovlBat_zero : (blockOf (exec .ovlBat (stateOf { p2Block with bl := 0 }))).map (fun b => b.gb) =
    some ⟨0x12, 0x34, 0x56, 0xF8, 0x1A, 0x3C⟩ := by decide
/-- 95_test_vectors.md section 2.1: `REQ [A5,5A,C3,3C,0F,F0] dp=1 bl=1`. -/
theorem test_applyIndicators_mixed : applyIndicators ⟨0xA5, 0x5A, 0xC3, 0x3C, 0x0F, 0xF0⟩ 1 1 =
    some ⟨0xA5, 0xDA, 0xC3, 0xBC, 0x8F, 0xF0⟩ := by decide
/-- Over integers 255 is illegal (95_test_vectors.md section 2.2). -/
theorem test_applyIndicators_255 : applyIndicators .blank 255 0 = none := by decide

/-! ### The frame builder -/

/-- "Append(0x140, 8, 0x92) = 0x14092" (95_test_vectors.md section 2.3). -/
theorem test_append : append 0x140 (0x92 : BitVec 8) = 0x14092 := by decide
theorem test_packOpc : (blockOf (exec .packOpc (stateOf p2Packing))).map (fun b => (b.acc, b.nb)) = some (5, 3) := by decide
theorem test_packAdr : (blockOf (exec .packAdr (stateOf { p2Packing with acc := 5, nb := 3 }))).map
    (fun b => (b.acc, b.nb, b.phase)) = some (0x140, 9, 6) := by decide
/-- R143's example. -/
theorem test_packDat : (blockOf (exec .packDat (stateOf { p2Packing with acc := 0x140, nb := 9 }))).map
    (fun b => (b.acc, b.nb, b.idx)) = some (0x14092, 17, 1) := by decide
/-- The sixth pass leaves the loop (P2, step 12). -/
theorem test_packDat_last :
    (blockOf (exec .packDat (stateOf { p2Packing with acc := 0x000140923456F89A, nb := 49, idx := 5 }))).map
      (fun b => (b.acc, b.nb, b.idx, b.phase)) = some (0x0140923456F89ABC, 57, 0, 7) := by decide
/-- R144's example. -/
theorem test_packPad : (blockOf (exec .packPad (stateOf { p2Packing with acc := 0x0140923456F89ABC, nb := 57 }))).map
    (fun b => (b.acc, b.nb)) = some (0xA0491A2B7C4D5E00, 64) := by decide
/-- R145's example. -/
theorem test_emit : (blockOf (exec .emit (stateOf { p2Packing with acc := 0xA0491A2B7C4D5E00, nb := 64 }))).map
    (fun b => (frameBytes b.frame, b.done)) = some ([0xA0, 0x49, 0x1A, 0x2B, 0x7C, 0x4D, 0x5E, 0x00], true) := by decide
/-- 95_test_vectors.md section 2.3: six different bytes. -/
theorem test_buildFrame : buildFrame ⟨0x3F, 0x06, 0x5B, 0x4F, 0x66, 0x6D⟩ = 0xA01F832DA7B33680 := by
  decide +kernel

/-! ### Transfers, status, encoder -/

theorem test_write_wire : wireOf (exec (.write 0x92 0x34 0x56 0xF8 0x9A 0xBC) State.reset) =
    some [[0xA0, 0x49, 0x1A, 0x2B, 0x7C, 0x4D, 0x5E, 0x00]] := by decide
theorem test_init1_wire : wireOf (exec .init1 State.reset) = some [[0x80, 0x00]] := by decide
theorem test_init2_wire : wireOf (exec .init2 State.reset) = some [[0x80, 0x22, 0x90, 0x18, 0x30]] := by decide
/-- "first bit on the wire first" (30_encoding.md R84). -/
theorem test_init1_bits : wireBits Config.init1Bytes =
    [true, false, false, false, false, false, false, false, false, false, false, false, false, false, false, false] := by decide
/-- "after a failed CHECK 0b01100" (95_test_vectors.md section 2.4). -/
theorem test_status_failed : ({ p3Block with err := true, ecode := 1, phase := phaseIdle } : Block).status = 0b01100 := by
  decide
/-- "during any request 0b00001". -/
theorem test_status_busy : p2Block.status = 0b00001 := by decide
/-- "1.2.3.4.5.6.7" under `input6` (95_test_vectors.md section 2.5), with an arbitrary table. -/
theorem test_encode_input6 : encodeWith (fun c => if c = '1' then 0x11 else if c = '2' then 0x22 else 0x33) 0x80 .input6
    ['1', '.', '2', '.', '3', '.', '4', '.', '5', '.', '6', '.', '7'] = ⟨0, 0, 0, 0x91, 0xA2, 0xB3⟩ := by decide
/-- "1..2": the second dot does not fold (95_test_vectors.md section 2.5). -/
theorem test_encode_two_dots : encodeWith (fun c => if c = '.' then 0x44 else 0x11) 0x80 .glyph6 ['1', '.', '.', '2'] =
    ⟨0, 0, 0, 0x91, 0x44, 0x11⟩ := by decide
/-- P5 row 6, `show("", -1, 0)`, first move: the host presents six zero bytes, and a selector left out is -1 (R76). -/
theorem test_show_presents : (step (State.reset.enqueue (.showText [] none (some 0)))) =
    .next { State.reset with
      ports := { rst := false, reqValid := true, gbIn := .blank, dpIn := 0xFF, blIn := 0x00 }
      caller := { todo := [], call := .presented .transmit, results := [] } } := rfl
/-- P5 row 5, `show("1", 3, -1)` fails the selector check and puts nothing on the bus. -/
theorem test_show_rejects : (step (State.reset.enqueue (.showText ['1'] (some 3) (some (-1))))) =
    .next { State.reset with caller := { todo := [], call := .idle, results := [.failed .invalidArgument] } } := rfl

/-- "an omitted selector is -1" (30_encoding.md R86). -/
theorem test_request_omits_selector : step (State.reset.enqueue (.request .blank none (some 2))) =
    .next { State.reset with
      ports := { rst := false, reqValid := true, gbIn := .blank, dpIn := 0xFF, blIn := 0x02 }
      caller := { todo := [], call := .presented .note, results := [] } } := rfl

/-! ### A row's bits run as the first operation after reset -/

theorem test_fetch_emit : blockOf (step (State.reset.withFetchWord 8 0b1000)) =
    blockOf (exec .emit (stateOf { Block.reset with phase := phaseEmit })) := by decide
theorem test_fetch_load : blockOf (step (State.reset.withFetchWord 8 0b0000)) =
    some { Block.reset with phase := phaseCheck, loaded := true } := by decide
theorem test_fetch_init2 : wireOf (step (State.reset.withFetchWord 40 0x8022901830)) =
    some [[0x80, 0x22, 0x90, 0x18, 0x30]] := by decide
theorem test_fetch_write : wireOf (step (State.reset.withFetchWord 64 0xA000000000000000)) =
    some [[0xA0, 0, 0, 0, 0, 0, 0, 0]] := by decide

/-! ### Witnesses: a concrete state or operand that meets the hypotheses of each statement of
Certificates/Slice0/Obligations.lean, with one for each clause at the ends of its range -/

/-- An outcome whose registers can be read is a next state. -/
theorem next_of_blockOf {o : Host.Outcome State Fault Refusal} (h : (blockOf o).isSome = true) : ∃ t, o = .next t := by
  cases o with
  | next t => exact ⟨t, rfl⟩
  | fault _ => cases h
  | refused _ => cases h

/-- The invariant as a conjunction, which can be decided for a concrete block. -/
theorem inv_of_clauses {b : Block}
    (h : (b.phase.toNat ≤ 8 ∧ b.idx.toNat ≤ 5 ∧ (b.idx ≠ 0 → b.phase = phasePackDat) ∧
        ¬(b.done = true ∧ b.err = true) ∧ (b.phase ≠ phaseIdle → b.done = false ∧ b.err = false)) ∧
      ((b.phase ≠ phaseIdle → b.nb.toNat = bitsAppended b.phase b.idx) ∧
        (b.phase ≠ phaseIdle → b.acc.toNat < 2 ^ b.nb.toNat) ∧
        (b.done = true → b.frame.extractLsb' 55 9 = 0b101000000 ∧ b.frame.extractLsb' 0 7 = 0)) ∧
      ((b.phase ≠ phaseIdle → b.acc = bitsPacked b.gb b.phase b.idx) ∧
        (b.phase.toNat ≥ 2 → legalSelector b.dp.toInt = true ∧ legalSelector b.bl.toInt = true) ∧
        (b.ecode = if b.err then 1 else 0) ∧ (b.phase ≠ phaseIdle → b.loaded = true)) ∧
      ((b.done = true → b.framed = true) ∧ (b.done = true → b.frame = buildFrame b.gb) ∧
        (b.framed = true → frameWellFormed b.frame = true) ∧ (b.phase = phaseIdle → b.nb = 0 ∨ b.nb = 64))) :
    b.Inv :=
  { phase_legal := h.1.1
    idx_le := h.1.2.1
    idx_only_in_dat := h.1.2.2.1
    not_done_and_err := h.1.2.2.2.1
    clear_while_busy := h.1.2.2.2.2
    nb_determined := h.2.1.1
    acc_bounded := h.2.1.2.1
    frame_form := h.2.1.2.2
    acc_exact := h.2.2.1.1
    selectors_checked := h.2.2.1.2.1
    ecode_of_err := h.2.2.1.2.2.1
    loaded_while_busy := h.2.2.1.2.2.2
    framed_when_done := h.2.2.2.1
    frame_of_request := h.2.2.2.2.1
    frame_wellFormed := h.2.2.2.2.2.1
    nb_in_idle := h.2.2.2.2.2.2 }

/-- The steps of P2 in order: what a reachable state can be in. Used wherever a statement ranges over reachable states. -/
theorem witness_reachable_phases :
    (List.range 14).map (fun n => ((afterSteps (n + 1)).block.phase, (afterSteps (n + 1)).block.idx)) =
      [(1, 0), (2, 0), (3, 0), (4, 0), (5, 0), (6, 0), (6, 1), (6, 2), (6, 3), (6, 4), (6, 5), (7, 0), (8, 0), (0, 0)] := by
  decide +kernel

/-- The invariant holds in each of those states: `Inv` and every phase go together. -/
theorem witness_inv_1 : (afterSteps 1).block.Inv := inv_of_clauses (by decide +kernel)
theorem witness_inv_2 : (afterSteps 2).block.Inv := inv_of_clauses (by decide +kernel)
theorem witness_inv_3 : (afterSteps 3).block.Inv := inv_of_clauses (by decide +kernel)
theorem witness_inv_4 : (afterSteps 4).block.Inv := inv_of_clauses (by decide +kernel)
theorem witness_inv_5 : (afterSteps 5).block.Inv := inv_of_clauses (by decide +kernel)
theorem witness_inv_6 : (afterSteps 6).block.Inv := inv_of_clauses (by decide +kernel)
theorem witness_inv_10 : (afterSteps 10).block.Inv := inv_of_clauses (by decide +kernel)
theorem witness_inv_11 : (afterSteps 11).block.Inv := inv_of_clauses (by decide +kernel)
theorem witness_inv_12 : (afterSteps 12).block.Inv := inv_of_clauses (by decide +kernel)
theorem witness_inv_13 : (afterSteps 13).block.Inv := inv_of_clauses (by decide +kernel)
theorem witness_inv_14 : (afterSteps 14).block.Inv := inv_of_clauses (by decide +kernel)
theorem witness_inv_p3 : p3Block.Inv := inv_of_clauses (by decide +kernel)

/-- The block has the move to itself in each of those states, and no call waits. -/
theorem witness_quiet : ∀ n : Fin 15, (afterSteps n.val).Quiet ∧ (afterSteps n.val).block.CodesLegal ∧
    (afterSteps n.val).caller.todo = [] := by
  decide +kernel

/-! Encodings -/

theorem witness_EncodeOfDecodeIsTheCode :
    decode (.phase 0) = .ok .load ∧ decode (.phase 8) = .ok .emit ∧ decode (.transfer [0x80, 0x00]) = .ok .init1 ∧
    decode (.transfer [0xA0, 0x49, 0x1A, 0x2B, 0x7C, 0x4D, 0x5E, 0x00]) =
      .ok (.write 0x92 0x34 0x56 0xF8 0x9A 0xBC) := by decide
theorem witness_FramesDecodeAndEncodeBack : frameWellFormed 0xA000000000000000 = true ∧
    frameWellFormed 0xA07FFFFFFFFFFF80 = true := by decide
theorem witness_WireOrderIsMostSignificantFirst :
    (wireBits (frameBytes 0x8000000000000000))[0]? = some true ∧ (wireBits (frameBytes 1))[63]? = some true := by decide
theorem witness_UnusedCodesAreRefused :
    refusalOf (step (stateOf { Block.reset with phase := 9 })) = some (.unusedPhase 9) ∧
    refusalOf (step (stateOf { Block.reset with idx := 6 })) = some (.unusedIdx 6) ∧
    refusalOf (step (stateOf { Block.reset with ecode := 3 })) = some .unusedEcode ∧ Reachable State.reset :=
  ⟨by decide, by decide, by decide, .reset⟩

/-- The reset state with the transport called to transmit this word. -/
def transmitting (w : FrameWord) : State :=
  { State.reset with bus := { State.reset.bus with outbox := some (.transmit w) } }

/-- Eight bytes that are no frame of this block are clocked out like any other (43_transport_downstream.md R173). -/
theorem test_transmit_not_a_frame : wireOf (step (transmitting 0xE000000000000000)) = some [[0xE0, 0, 0, 0, 0, 0, 0, 0]] := by
  decide

/-- A word that is a frame and one that is none. -/
theorem witness_TransmitSendsWhateverItIsGiven :
    ((transmitting 0xE000000000000000).ports.rst = false ∧ (transmitting 0xE000000000000000).block.CodesLegal ∧
      (transmitting 0xE000000000000000).bus.outbox = some (.transmit 0xE000000000000000) ∧
      frameWellFormed 0xE000000000000000 = false) ∧
    (transmitting 0xA000000000000000).bus.outbox = some (.transmit 0xA000000000000000) ∧
    Reachable (afterSteps 14) ∧ (afterSteps 14).block.done = true :=
  ⟨by decide, rfl, afterSteps_reachable 14, by decide +kernel⟩

/-! Append and buildFrame -/

theorem witness_AppendNeverLosesABit :
    (0x140 : BitVec 64).toNat < 2 ^ 9 ∧ 9 + 8 ≤ 64 ∧ (0x0140923456F89ABC : BitVec 64).toNat < 2 ^ 57 ∧ 57 + 7 ≤ 64 ∧
    Reachable (afterSteps 13) ∧ (afterSteps 13).block.phase ≠ phaseIdle :=
  ⟨by decide, by decide, by decide, by decide, afterSteps_reachable 13, by decide +kernel⟩
theorem witness_BuildFrameIsInjective : (0xA0491A2B7C4D5E00 : FrameWord) &&& 0xFF8000000000007F = 0xA000000000000000 := by
  decide
theorem witness_BlockBuildsTheFrame :
    (afterSteps 4).Quiet ∧ (afterSteps 4).block.CodesLegal ∧ (afterSteps 4).block.phase = phasePackOpc := by decide +kernel

/-- `ACC` and `NB` in every state in which the block works; each phase and each pass of the loop is one of them. -/
theorem witness_AccumulatorValues : ∀ n : Fin 14, Reachable (afterSteps (n.val + 1)) :=
  fun n => afterSteps_reachable (n.val + 1)
theorem witness_BookkeepingNeverWraps : Reachable (afterSteps 1) ∧ Reachable (afterSteps 13) :=
  ⟨afterSteps_reachable 1, afterSteps_reachable 13⟩

/-! The overlay engine -/

theorem witness_LoadAcceptsTheRequest :
    (State.reset.drive p2).ports.reqValid = true ∧ State.reset.ports.reqValid = false := by decide
theorem witness_CheckValidatesBothSelectors :
    ((0xFF : Sel).toInt = -1 ∧ (0x02 : Sel).toInt = 2) ∧ ((0xFE : Sel).toInt = -2 ∧ (0x03 : Sel).toInt = 3) := by decide
theorem witness_RaisingEndsTheRequest :
    (stateOf p3Block).Quiet ∧ (stateOf p3Block).block.Inv ∧ (stateOf p3Block).block.phase = phaseCheck ∧
    ¬(legalSelector (stateOf p3Block).block.dp.toInt = true ∧ legalSelector (stateOf p3Block).block.bl.toInt = true) :=
  ⟨by decide, witness_inv_p3, by decide, by decide⟩
theorem witness_OvlDpLightsOneByte :
    (stateOf { p2Block with dp := 0xFF }).block.dp.toInt = -1 ∧ (stateOf { p2Block with dp := 0 }).block.dp.toInt = 0 ∧
    (stateOf { p2Block with dp := 1 }).block.dp.toInt = 1 ∧ (stateOf { p2Block with dp := 2 }).block.dp.toInt = 2 := by decide
theorem witness_OvlBatLightsTheStagedBytes :
    (stateOf { p2Block with bl := 0xFF }).block.bl.toInt = -1 ∧ (stateOf { p2Block with bl := 0 }).block.bl.toInt = 0 ∧
    (stateOf { p2Block with bl := 1 }).block.bl.toInt = 1 ∧ (stateOf { p2Block with bl := 2 }).block.bl.toInt = 2 := by decide
theorem witness_OvlDpStopsOnlyOnUncheckedSelectors :
    exec .ovlDp (stateOf p3Block) = .fault .uncheckedSelector ∧ Reachable (afterSteps 2) ∧
    (afterSteps 2).block.phase = phaseOvlDp :=
  ⟨rfl, afterSteps_reachable 2, by decide +kernel⟩
theorem witness_BlockAppliesTheIndicators :
    (State.reset.drive p2).Quiet ∧ (State.reset.drive p2).block.CodesLegal ∧
    (State.reset.drive p2).block.phase = phaseIdle ∧ (State.reset.drive p2).ports.reqValid = true ∧
    applyIndicators p2.gbIn p2.dpIn.toInt p2.blIn.toInt = some p2Overlaid ∧
    (State.reset.drive p3).Quiet ∧ (State.reset.drive p3).ports.reqValid = true ∧
    applyIndicators p3.gbIn p3.dpIn.toInt p3.blIn.toInt = none := by decide
theorem witness_OverlayLaws :
    (∃ t1 t2 u1 u2, exec .ovlDp (stateOf p2Block) = .next t1 ∧ exec .ovlBat t1 = .next t2 ∧
      exec .ovlBat (stateOf p2Block) = .next u1 ∧ exec .ovlDp u1 = .next u2 ∧ t2.block.gb = p2Overlaid ∧
      u2.block.gb = p2Overlaid) ∧
    applyIndicators p2.gbIn 0 2 = some p2Overlaid :=
  ⟨⟨_, _, _, _, rfl, rfl, rfl, rfl, by decide, by decide⟩, by decide⟩

/-! The frame builder -/

theorem witness_PackOpcAppendsTheOpcode :
    (afterSteps 4).block.Inv ∧ (afterSteps 4).block.phase = phasePackOpc := ⟨witness_inv_4, by decide +kernel⟩
theorem witness_PackAdrAppendsTheAddress :
    (afterSteps 5).block.Inv ∧ (afterSteps 5).block.phase = phasePackAdr := ⟨witness_inv_5, by decide +kernel⟩
theorem witness_PackDatAppendsOneGlyphByte :
    ((afterSteps 6).block.Inv ∧ (afterSteps 6).block.phase = phasePackDat ∧ (afterSteps 6).block.idx.toNat = (0 : Fin 6).val) ∧
    ((afterSteps 11).block.Inv ∧ (afterSteps 11).block.phase = phasePackDat ∧
      (afterSteps 11).block.idx.toNat = (5 : Fin 6).val) :=
  ⟨⟨witness_inv_6, by decide +kernel, by decide +kernel⟩, witness_inv_11, by decide +kernel, by decide +kernel⟩
theorem witness_PackPadAppendsThePadding :
    (afterSteps 12).block.Inv ∧ (afterSteps 12).block.phase = phasePackPad := ⟨witness_inv_12, by decide +kernel⟩
theorem witness_EmitPresentsTheFrame :
    ((afterSteps 13).block.Inv ∧ (afterSteps 13).block.phase = phaseEmit) ∧
    Instr.load ≠ .emit ∧ ∃ t, exec .load State.reset = .next t :=
  ⟨⟨witness_inv_13, by decide +kernel⟩, by decide, _, rfl⟩
/-- Each micro-operation, from a state of its phase, has a next state. -/
theorem witness_MicroOpsWriteOnlyTheirRegisters :
    ∀ i ∈ [Instr.load, .check, .ovlDp, .ovlBat, .packOpc, .packAdr, .packDat, .packPad, .emit],
      (blockOf (exec i (stateOf p2Packing))).isSome = true := by decide

/-! The step -/

theorem witness_StepRunsTheMicroOpOfThePhase :
    (afterSteps 13).ports.rst = false ∧ (afterSteps 13).block.CodesLegal ∧ (afterSteps 13).bus.outbox = none ∧
    (afterSteps 13).hostMove = none ∧ decode (.phase (afterSteps 13).block.phase) = .ok .emit := by decide +kernel

theorem witness_StepRunsTheTransferInTheOutbox :
    (transmitting 0xA0491A2B7C4D5E00).ports.rst = false ∧ (transmitting 0xA0491A2B7C4D5E00).block.CodesLegal ∧
    (transmitting 0xA0491A2B7C4D5E00).bus.outbox = some (.transmit 0xA0491A2B7C4D5E00) ∧
    decode (.transfer (TransportCall.transmit 0xA0491A2B7C4D5E00).bytes) = .ok (.write 0x92 0x34 0x56 0xF8 0x9A 0xBC) := by
  decide
theorem witness_HostMovesLeaveTheBlock :
    (State.reset.enqueue .transportReset).ports.rst = false ∧ (State.reset.enqueue .transportReset).block.CodesLegal ∧
    (State.reset.enqueue .transportReset).bus.outbox = none ∧
    (State.reset.enqueue .transportReset).hostMove.isSome = true := by decide
/-- The rows of IDLE without a request and of a failing CHECK, and the first and last row of a request; the rows between
are `witness_reachable_phases`, `witness_quiet` and the `witness_inv` theorems together. -/
theorem witness_TransitionTable :
    ((afterSteps 1).Quiet ∧ (afterSteps 1).caller.todo = [] ∧ (afterSteps 1).block.Inv ∧
      (afterSteps 1).block.phase = phaseCheck) ∧
    ((afterSteps 13).Quiet ∧ (afterSteps 13).caller.todo = [] ∧ (afterSteps 13).block.Inv ∧
      (afterSteps 13).block.phase = phaseEmit) ∧
    ((afterSteps 14).drive { p2 with reqValid := false }).Quiet ∧
    ((afterSteps 14).drive { p2 with reqValid := false }).ports.reqValid = false ∧
    ((afterSteps 14).drive { p2 with reqValid := false }).block.Inv ∧ (afterSteps 14).ports.reqValid = true ∧
    (stateOf p3Block).caller.todo = [] ∧ legalSelector (stateOf p3Block).block.dp.toInt = false ∧
    legalSelector (afterSteps 1).block.dp.toInt = true ∧ legalSelector (afterSteps 1).block.bl.toInt = true :=
  ⟨⟨by decide +kernel, by decide +kernel, witness_inv_1, by decide +kernel⟩,
    ⟨by decide +kernel, by decide +kernel, witness_inv_13, by decide +kernel⟩,
    by decide +kernel, by decide +kernel, witness_inv_14, by decide +kernel, by decide, by decide, by decide +kernel,
    by decide +kernel⟩
theorem witness_RequestComputesReq :
    (State.reset.Quiet ∧ State.reset.block.CodesLegal ∧ State.reset.block.phase = phaseIdle) ∧
    (p2.reqValid = true ∧ req p2.gbIn p2.dpIn.toInt p2.blIn.toInt = some 0xA0491A2B7C4D5E00 ∧
      (List.replicate 13 p3).length = 13) ∧
    (p3.reqValid = true ∧ req p3.gbIn p3.dpIn.toInt p3.blIn.toInt = none ∧ [p2].length = 1) := by decide +kernel
/-- From two states with different registers, with different inputs after LOAD: a legal request to its end, and an illegal
one. -/
theorem witness_OutcomeDependsOnTheSampledInputsOnly :
    (afterSteps 14).block ≠ State.reset.block ∧ (afterSteps 14).block.phase = phaseIdle ∧
    (∃ t1 t2, runWith (p2 :: List.replicate 13 p3) State.reset = .next t1 ∧
      runWith (p2 :: List.replicate 13 p2) (afterSteps 14) = .next t2) ∧
    (∃ t1 t2, runWith [p3, p2] State.reset = .next t1 ∧ runWith [p3, p3] (afterSteps 14) = .next t2) ∧
    legalSelector p2.dpIn.toInt = true ∧ legalSelector p2.blIn.toInt = true :=
  ⟨by decide +kernel, by decide +kernel,
    ⟨_, _, (next_of_blockOf (by decide +kernel)).choose_spec, (next_of_blockOf (by decide +kernel)).choose_spec⟩,
    ⟨_, _, (next_of_blockOf (by decide +kernel)).choose_spec, (next_of_blockOf (by decide +kernel)).choose_spec⟩,
    by decide, by decide⟩
theorem witness_StepCounts :
    (State.reset.drive p2).Quiet ∧ (State.reset.drive p2).block.CodesLegal ∧
    (State.reset.drive p2).block.phase = phaseIdle ∧ (State.reset.drive p2).ports.reqValid = true ∧
    legalSelector (State.reset.drive p2).ports.dpIn.toInt = true ∧
    legalSelector (State.reset.drive p2).ports.blIn.toInt = true ∧
    (State.reset.drive p3).ports.reqValid = true ∧ legalSelector (State.reset.drive p3).ports.dpIn.toInt = false := by decide
theorem witness_AcceptedRequestsEnd :
    ((afterSteps 1).Quiet ∧ (afterSteps 1).block.Inv ∧ (afterSteps 1).block.phase ≠ phaseIdle ∧
      (List.replicate 13 p3).length = (afterSteps 1).block.stepsLeft) ∧
    ((afterSteps 13).Quiet ∧ (afterSteps 13).block.Inv ∧ (afterSteps 13).block.phase ≠ phaseIdle ∧
      [p3].length = (afterSteps 13).block.stepsLeft) :=
  ⟨⟨by decide +kernel, witness_inv_1, by decide +kernel, by decide +kernel⟩,
    by decide +kernel, witness_inv_13, by decide +kernel, by decide +kernel⟩
theorem witness_BusyBlockIgnoresTheRequestPort :
    (afterSteps 1).Quiet ∧ (afterSteps 1).block.phase ≠ phaseIdle ∧ ∃ t, step (afterSteps 1) = .next t :=
  ⟨by decide +kernel, by decide +kernel, next_of_blockOf (by decide +kernel)⟩

/-- P2 has ended, a second request with P3's inputs has failed CHECK, and the host is about to transmit the stale frame. -/
def staleBlock : Block := ((afterSteps 14).block.accept (State.reset.drive p3).ports).raise .invalidArgument

/-- The host is about to transmit that stale frame. -/
def readyToSendStale : State := (stateOf staleBlock).enqueue .transmit

theorem witness_StaleFrameUntilEmit :
    (Reachable (afterSteps 13) ∧ (afterSteps 13).block.phase ≠ phaseIdle) ∧
    ((afterSteps 12).ports.rst = false ∧ (afterSteps 12).block.phase ≠ phaseEmit ∧ ∃ t, step (afterSteps 12) = .next t) ∧
    ((afterSteps 15).Quiet ∧ (afterSteps 15).block.CodesLegal ∧ (afterSteps 15).block.framed = true ∧
      (afterSteps 15).block.done = false ∧ (afterSteps 15).block.phase = phaseCheck) ∧
    (readyToSendStale.HostFree ∧ readyToSendStale.block.framed = true ∧ readyToSendStale.block.done = false ∧
      readyToSendStale.caller.todo = [.transmit]) :=
  ⟨⟨afterSteps_reachable 13, by decide +kernel⟩,
    ⟨by decide +kernel, by decide +kernel, next_of_blockOf (by decide +kernel)⟩,
    by decide +kernel, by decide +kernel⟩
/-- Between the second request's LOAD and its EMIT, the frame on the wire is the first request's, P2's (R242). -/
theorem test_transmit_stale : wireOf (step (afterSteps 15).transmitNow) =
    some [[0xA0, 0x49, 0x1A, 0x2B, 0x7C, 0x4D, 0x5E, 0x00]] := by decide +kernel

/-! Flags, reset, invariants -/

theorem witness_FlagRules :
    (State.reset.drive p2).ports.reqValid = true ∧ (∃ t, exec .load (State.reset.drive p2) = .next t) ∧
    (∃ t, exec .emit State.reset = .next t) ∧ (∃ t, exec .check (stateOf p3Block) = .next t) ∧
    (∃ t, exec .check (stateOf p2Block) = .next t) ∧ (∃ t, exec .packAdr State.reset = .next t) ∧
    ((State.reset.driveRst true).ports.rst = true ∧ ∃ t, step (State.reset.driveRst true) = .next t) ∧
    Reachable (afterSteps 14) ∧ (afterSteps 14).block.done = true :=
  ⟨by decide, ⟨_, rfl⟩, ⟨_, rfl⟩, ⟨_, rfl⟩, ⟨_, rfl⟩, ⟨_, rfl⟩, ⟨by decide, _, rfl⟩, afterSteps_reachable 14,
    by decide +kernel⟩
theorem witness_ResetWinsOverEverything : ((afterSteps 7).driveRst true).ports.rst = true := by decide +kernel
theorem witness_StepKeepsTheInvariant : (afterSteps 1).block.Inv ∧ ∃ t, step (afterSteps 1) = .next t :=
  ⟨witness_inv_1, next_of_blockOf (by decide +kernel)⟩
theorem witness_ReachableStatesMeetTheInvariants : Reachable (afterSteps 14) := afterSteps_reachable 14
/-- The clauses about LOAD, EMIT, the other operations and reset have the same hypotheses as clauses of
`Obligations.FlagRules`. -/
theorem witness_UnwrittenRegistersAreNeverRead :
    (Reachable (afterSteps 1) ∧ (afterSteps 1).block.phase ≠ phaseIdle) ∧
    (Reachable (afterSteps 14) ∧ (afterSteps 14).block.done = true ∧ (afterSteps 14).block.frameValid = true ∧
      (afterSteps 14).block.framed = true ∧ (afterSteps 14).block.loaded = true) :=
  ⟨⟨afterSteps_reachable 1, by decide +kernel⟩, afterSteps_reachable 14, by decide +kernel⟩

/-! The host side -/

theorem witness_EncodeAlignsRight :
    (foldDots Config.glyph 0x80 ['1', '.', '2']).length ≤ 6 ∧ 1 < (foldDots Config.glyph 0x80 ['1', '.', '2']).length ∧
    (5 : Fin 6).val = 6 - (foldDots Config.glyph 0x80 ['1', '.', '2']).length + 1 ∧
    (3 : Fin 6).val < 6 - (foldDots Config.glyph 0x80 ['1', '.', '2']).length ∧
    (foldDots Config.glyph 0x80 ['1', '2', '3', '4', '5', '6']).length = 6 := by
  refine ⟨?_, ?_, ?_, ?_, ?_⟩ <;> simp [foldDots, Config.dotChar]
theorem witness_FoldingLaw : '1' ≠ '.' ∧ '2' ≠ '.' := by decide
theorem witness_TruncationIsNotAnError :
    (foldDots Config.glyph 0x80 ['1', '2', '3', '4', '5', '6', '7']).length > 6 ∧ '.' ∉ ['1', '2', '3', '4', '5', '6', '7'] ∧
    (foldDots Config.glyph 0x80 ['1', '2', '3', '4', '5', '6']).length ≤ 6 := by
  refine ⟨?_, ?_, ?_⟩ <;> simp [foldDots, Config.dotChar]
theorem witness_ShowRejectsIllegalSelectors :
    (State.reset.enqueue (.showText ['1'] (some 3) none)).HostFree ∧
    (State.reset.enqueue (.showText ['1'] (some 3) none)).caller.todo = [.showText ['1'] (some 3) none] ∧
    ((some 3).getD (-1 : Int) = 3 ∧ (none : Option Int).getD (-1) = -1) ∧
    ¬(((3 : Int) = -1 ∨ (3 : Int) = 0 ∨ (3 : Int) = 1 ∨ (3 : Int) = 2) ∧
      ((-1 : Int) = -1 ∨ (-1 : Int) = 0 ∨ (-1 : Int) = 1 ∨ (-1 : Int) = 2)) := by decide
theorem witness_ShowTransmitsTheFrame :
    (State.reset.enqueue (.showText ['1'] none (some 2))).HostFree ∧
    (State.reset.enqueue (.showText ['1'] none (some 2))).caller.todo = [.showText ['1'] none (some 2)] ∧
    ((none : Option Int).getD (-1) = -1 ∧ (some 2).getD (-1 : Int) = 2) ∧
    ((-1 : Int) = -1 ∨ (-1 : Int) = 0 ∨ (-1 : Int) = 1 ∨ (-1 : Int) = 2) ∧
    ((2 : Int) = -1 ∨ (2 : Int) = 0 ∨ (2 : Int) = 1 ∨ (2 : Int) = 2) := by decide
theorem witness_StartUpSendsTheTwoTransfers :
    ((State.reset.enqueue .transportReset).enqueue .initChip).HostFree ∧
    ((State.reset.enqueue .transportReset).enqueue .initChip).caller.todo = [.transportReset, .initChip] := by decide

end Sys2Proof.Tests
end

/-! # The state family: `Append`, the frame word and the accumulator

The facts about `Append` and `buildFrame` (42_frame_builder.md R140, R146, R147) that the invariant of the block rests on. -/

namespace Sys2Proof.Machine

/-! ### `Append` -/

theorem getLsbD_appendBits {w : Nat} (acc : BitVec 64) (v : BitVec w) (j i : Nat) :
    (appendBits acc v j).getLsbD i = (decide (i < 64) && if i < j then v.getLsbD i else acc.getLsbD (i - j)) := by
  induction j generalizing acc with
  | zero =>
    by_cases hi : i < 64
    · simp [appendBits, hi]
    · simp [appendBits, hi, BitVec.getLsbD_of_ge _ _ (Nat.le_of_not_lt hi)]
  | succ j ih =>
    simp only [appendBits, ih]
    rcases Nat.lt_trichotomy i j with h | rfl | h
    · simp [h, Nat.lt_succ_of_lt h]
    · simp
    · obtain ⟨k, rfl⟩ := Nat.exists_eq_add_of_lt h
      by_cases hi : j + k + 1 < 64
      · have hk : k + 1 < 64 := by omega
        simp [hk, Nat.add_assoc, BitVec.getLsbD_eq_getElem (show k < 64 by omega),
          show ¬ j + (k + 1) < j by omega, show j + (k + 1) - (j + 1) = k by omega]
      · simp [hi]

/-- Each bit of the accumulator after `Append`: the field at the bottom, the old accumulator above it. -/
theorem getLsbD_append {w : Nat} (acc : BitVec 64) (v : BitVec w) (i : Nat) :
    (append acc v).getLsbD i = (decide (i < 64) && if i < w then v.getLsbD i else acc.getLsbD (i - w)) :=
  getLsbD_appendBits acc v w i

/-- R140: the field form of `Append`. -/
theorem append_eq_shiftLeft_or {w : Nat} (acc : BitVec 64) (v : BitVec w) :
    append acc v = (acc <<< w) ||| v.setWidth 64 := by
  apply BitVec.eq_of_getLsbD_eq
  intro i hi
  rw [getLsbD_append, BitVec.getLsbD_or, BitVec.getLsbD_shiftLeft, BitVec.getLsbD_setWidth]
  by_cases hw : i < w
  · simp [hi, hw]
  · simp [hi, hw, BitVec.getLsbD_of_ge v i (Nat.le_of_not_lt hw)]

/-- `Append` of a field to an accumulator that holds a shorter word is concatenation (42_frame_builder.md R147). -/
theorem append_setWidth {n w : Nat} (x : BitVec n) (v : BitVec w) :
    append (x.setWidth 64) v = (x ++ v).setWidth 64 := by
  apply BitVec.eq_of_getLsbD_eq
  intro i hi
  rw [getLsbD_append]
  simp [BitVec.getLsbD_append, hi, show i - w < 64 by omega]

/-- No set bit is shifted out while the fields fit (42_frame_builder.md R157, R158). -/
theorem append_toNat {w n : Nat} {acc : BitVec 64} (v : BitVec w) (h : acc.toNat < 2 ^ n) (hn : n + w ≤ 64) :
    (append acc v).toNat = acc.toNat * 2 ^ w + v.toNat := by
  have hlt : acc.toNat * 2 ^ w < 2 ^ 64 := calc
    acc.toNat * 2 ^ w < 2 ^ n * 2 ^ w := Nat.mul_lt_mul_of_pos_right h (Nat.two_pow_pos w)
    _ = 2 ^ (n + w) := (Nat.pow_add ..).symm
    _ ≤ 2 ^ 64 := Nat.pow_le_pow_right (by decide) hn
  have hv : v.toNat < 2 ^ 64 := v.isLt.trans_le (Nat.pow_le_pow_right (by decide) (by omega))
  rw [append_eq_shiftLeft_or, BitVec.toNat_or, BitVec.toNat_shiftLeft, BitVec.toNat_setWidth, Nat.shiftLeft_eq,
    Nat.mod_eq_of_lt hlt, Nat.mod_eq_of_lt hv, ← Nat.shiftLeft_eq, ← Nat.shiftLeft_add_eq_or_of_lt v.isLt]

theorem append_toNat_lt {w n : Nat} {acc : BitVec 64} (v : BitVec w) (h : acc.toNat < 2 ^ n) (hn : n + w ≤ 64) :
    (append acc v).toNat < 2 ^ (n + w) := by
  rw [append_toNat v h hn]
  calc acc.toNat * 2 ^ w + v.toNat
    _ < (acc.toNat + 1) * 2 ^ w := by rw [Nat.succ_mul]; exact Nat.add_lt_add_left v.isLt _
    _ ≤ 2 ^ n * 2 ^ w := Nat.mul_le_mul_right _ h
    _ = 2 ^ (n + w) := (Nat.pow_add ..).symm

/-! ### The glyph bytes in the accumulator -/

/-- One more pass of PACK.DAT's loop (42_frame_builder.md R143). -/
theorem packGlyphs_succ (acc : BitVec 64) (g : GlyphBuffer) (i : Fin 6) :
    packGlyphs acc g (i.val + 1) = append (packGlyphs acc g i.val) (g.get i) := by
  match i with
  | 0 | 1 | 2 | 3 | 4 | 5 => rfl

theorem foldl_append_toNat_lt {n : Nat} (bytes : List Byte) {acc : BitVec 64} (h : acc.toNat < 2 ^ n)
    (hn : n + 8 * bytes.length ≤ 64) :
    (bytes.foldl (fun a v => append a v) acc).toNat < 2 ^ (n + 8 * bytes.length) := by
  induction bytes generalizing n acc with
  | nil => simpa using h
  | cons b bs ih =>
    simp only [List.length_cons] at hn ⊢
    have := ih (append_toNat_lt b h (by omega)) (by omega)
    rwa [show n + 8 * (bs.length + 1) = n + 8 + 8 * bs.length by omega]

theorem packGlyphs_toNat_lt {n k : Nat} {acc : BitVec 64} (g : GlyphBuffer) (h : acc.toNat < 2 ^ n)
    (hk : k ≤ 6) (hn : n + 8 * k ≤ 64) : (packGlyphs acc g k).toNat < 2 ^ (n + 8 * k) := by
  have hlen : (g.toList.take k).length = k := by simpa [GlyphBuffer.toList] using hk
  have := foldl_append_toNat_lt (g.toList.take k) h (by omega)
  rwa [hlen] at this

/-- The value that `PHASE`, `IDX` and `GB` give `ACC` fits the bits that they give `NB` (R41 (f)). -/
theorem bitsPacked_toNat_lt (g : GlyphBuffer) (phase : BitVec 4) {idx : BitVec 3} (h : idx.toNat ≤ 5) :
    (bitsPacked g phase idx).toNat < 2 ^ bitsAppended phase idx := by
  have header : (packHeader 0).toNat < 2 ^ 9 := by decide
  unfold bitsPacked bitsAppended
  split
  · decide
  · exact packGlyphs_toNat_lt g header (by omega) (by omega)
  · exact packGlyphs_toNat_lt (k := 6) g header (by omega) (by omega)
  · exact BitVec.isLt _
  · exact Nat.one_pos

/-! ### The frame -/

/-- R146: the frame that the block appends field by field is the concatenation of its fields. -/
theorem buildFrame_eq_frameOfGlyphs (g : GlyphBuffer) : buildFrame g = frameOfGlyphs g := by
  have zero : (0 : BitVec 64) = (0#0).setWidth 64 := rfl
  simp only [buildFrame, packFrom, packHeader, packGlyphs, GlyphBuffer.toList, List.take, List.foldl]
  rw [zero]
  simp only [append_setWidth]
  rfl

/-- R72, R81: a frame the block builds is a well-formed transfer. -/
theorem frameWellFormed_buildFrame (g : GlyphBuffer) : frameWellFormed (buildFrame g) = true :=
  buildFrame_eq_frameOfGlyphs g ▸ frameWellFormed_frameOfGlyphs g

/-- The constant bits of a well-formed frame, field by field: opcode and address, and the padding (R41 (g)). -/
theorem extract_of_frameWellFormed {w : FrameWord} (h : frameWellFormed w = true) :
    w.extractLsb' 55 9 = 0b101000000 ∧ w.extractLsb' 0 7 = 0 := by
  have bit : ∀ i, (w &&& Config.frameMask).getLsbD i = Config.frameMatch.getLsbD i :=
    fun i => congrArg (·.getLsbD i) (beq_iff_eq.mp h)
  constructor
  · apply BitVec.eq_of_getLsbD_eq
    intro i hi
    have := bit (55 + i)
    interval_cases i <;> simpa [Config.frameMask, Config.frameMatch] using this
  · apply BitVec.eq_of_getLsbD_eq
    intro i hi
    have := bit i
    interval_cases i <;> simpa [Config.frameMask, Config.frameMatch] using this

end Sys2Proof.Machine

/-! # The state family: what an operation does to the registers

`Effect` says, row by row of the access matrix (10_state.md R38), what may become of the block; `exec_effect` ties it to
`exec`, and the lemmas after it read the matrix column by column. -/

namespace Sys2Proof.Machine

/-! ### OVL.BAT and the glyph index -/

/-- OVL.BAT writes `GB[3]` to `GB[5]` and nothing else. -/
theorem Block.lightBattery_eq (b : Block) (level : Int) :
    ∃ g, b.lightBattery level = { b with gb := g } ∧ g.g0 = b.gb.g0 ∧ g.g1 = b.gb.g1 ∧ g.g2 = b.gb.g2 := by
  unfold lightBattery
  split
  · exact ⟨_, rfl, rfl, rfl, rfl⟩
  · split <;> split <;> exact ⟨_, rfl, rfl, rfl, rfl⟩

theorem glyphIndex_eq_some {idx : BitVec 3} {i : Fin 6} (h : glyphIndex idx = some i) : idx.toNat = i.val := by
  unfold glyphIndex at h
  split at h
  · exact congrArg Fin.val (Option.some.inj h)
  · cases h

theorem dpIndex_le_two {dp : Sel} {i : Fin 6} (h : dpIndex dp = some i) : i.val ≤ 2 := by
  unfold dpIndex at h
  split at h
  · cases h
    decide
  · split at h
    · cases h
      decide
    · split at h
      · cases h
        decide
      · cases h

/-! ### The operations that may answer otherwise, one equation per answer -/

/-- OVL.DP without a decimal point only goes on (R122). -/
theorem exec_ovlDp_none {s : State} (h : s.block.dp.toInt = -1) :
    exec .ovlDp s = .next (s.withBlock (s.block.toPhase phaseOvlBat)) := if_pos h

/-- OVL.DP lights the byte that a checked selector names (R122). -/
theorem exec_ovlDp_some {s : State} {i : Fin 6} (h : s.block.dp.toInt ≠ -1) (hi : dpIndex s.block.dp = some i) :
    exec .ovlDp s = .next (s.withBlock ((s.block.light i).toPhase phaseOvlBat)) := by
  simp [exec, execOvlDp, h, hi]

/-- PACK.DAT appends the byte that a legal `IDX` names (R143). -/
theorem exec_packDat_some {s : State} {i : Fin 6} (hi : glyphIndex s.block.idx = some i) :
    exec .packDat s = .next (s.withBlock
      (if s.block.idx = 5 then ((s.block.pack (s.block.gb.get i)).setIdx 0).toPhase phasePackPad
       else ((s.block.pack (s.block.gb.get i)).setIdx (s.block.idx + 1)).toPhase phasePackDat)) := by
  simp [exec, execPackDat, hi]

/-! ### The status view -/

/-- Each bit of `STATUS`, from `BUSY` at the bottom to `ECODE` at the top (10_state.md R31). -/
theorem Block.getLsbD_status (b : Block) (i : Nat) : b.status.getLsbD i =
    if i < 1 then (BitVec.ofBool b.busy).getLsbD i
    else if i - 1 < 1 then (BitVec.ofBool b.done).getLsbD (i - 1)
    else if i - 1 - 1 < 1 then (BitVec.ofBool b.err).getLsbD (i - 1 - 1)
    else b.ecode.getLsbD (i - 1 - 1 - 1) := by
  change (b.ecode ++ BitVec.ofBool b.err ++ BitVec.ofBool b.done ++ BitVec.ofBool b.busy).getLsbD i = _
  rw [BitVec.getLsbD_append, BitVec.getLsbD_append, BitVec.getLsbD_append]

/-! ### The effect of each operation on the block -/

/-- What an operation, under the levels on the request port, makes of the block's registers. -/
def Effect (p : Ports) (b : Block) (i : Instr) (c : Block) : Prop :=
  match i with
  | .load => p.reqValid = true ∧ c = b.accept p ∨ p.reqValid = false ∧ c = b
  | .check =>
    (legalSelector b.dp.toInt = true ∧ legalSelector b.bl.toInt = true) ∧ c = b.toPhase phaseOvlDp ∨
    ¬(legalSelector b.dp.toInt = true ∧ legalSelector b.bl.toInt = true) ∧ c = b.raise .invalidArgument
  | .ovlDp => c = b.toPhase phaseOvlBat ∨ ∃ q : Fin 6, q.val ≤ 2 ∧ c = (b.light q).toPhase phaseOvlBat
  | .ovlBat => ∃ g : GlyphBuffer, (g.g0 = b.gb.g0 ∧ g.g1 = b.gb.g1 ∧ g.g2 = b.gb.g2) ∧
      c = { b with gb := g }.toPhase phasePackOpc
  | .packOpc => c = (b.pack Config.opc).toPhase phasePackAdr
  | .packAdr => c = ((b.pack Config.addr).setIdx 0).toPhase phasePackDat
  | .packDat =>
    b.idx = 5 ∧ c = ((b.pack (b.gb.get 5)).setIdx 0).toPhase phasePackPad ∨
    ∃ j : Fin 6, b.idx.toNat = j.val ∧ b.idx ≠ 5 ∧
      c = ((b.pack (b.gb.get j)).setIdx (b.idx + 1)).toPhase phasePackDat
  | .packPad => c = (b.pack Config.pad).toPhase phaseEmit
  | .emit => c = b.present.toPhase phaseIdle
  | .write _ _ _ _ _ _ | .init1 | .init2 => c = b

/-- Every next state that `exec` answers has the registers of one of the effects. -/
theorem exec_effect {i : Instr} {s t : State} (h : exec i s = .next t) : Effect s.ports s.block i t.block := by
  cases i with
  | load =>
    simp only [exec, execLoad] at h
    split at h <;> rename_i hv <;> cases h
    · exact .inl ⟨hv, rfl⟩
    · exact .inr ⟨Bool.eq_false_iff.mpr hv, rfl⟩
  | check =>
    simp only [exec, execCheck, Bool.and_eq_true] at h
    split at h <;> rename_i legal <;> cases h
    · exact .inl ⟨legal, rfl⟩
    · exact .inr ⟨legal, rfl⟩
  | ovlDp =>
    simp only [exec, execOvlDp] at h
    split at h
    · cases h
      exact .inl rfl
    · split at h <;> cases h
      exact .inr ⟨_, dpIndex_le_two ‹_›, rfl⟩
  | ovlBat =>
    cases h
    obtain ⟨g, hg, kept⟩ := s.block.lightBattery_eq s.block.bl.toInt
    exact ⟨g, kept, congrArg (Block.toPhase · phasePackOpc) hg⟩
  | packDat =>
    simp only [exec, execPackDat] at h
    split at h
    · cases h
    · rename_i j hj
      have hidx := glyphIndex_eq_some hj
      split at h <;> rename_i h5 <;> cases h
      · obtain rfl : j = 5 := Fin.ext (hidx ▸ h5 ▸ rfl)
        exact .inl ⟨h5, rfl⟩
      · exact .inr ⟨j, hidx, h5, rfl⟩
  | packOpc | packAdr | packPad | emit | write | init1 | init2 =>
    cases h
    rfl

/-- The effects one by one, with a name for each; for `cases … using Effect.elim`. -/
theorem Effect.elim {p : Ports} {b : Block} {motive : ∀ (i : Instr) (c : Block), Effect p b i c → Prop}
    (accept : ∀ hv : p.reqValid = true, motive .load (b.accept p) (.inl ⟨hv, rfl⟩))
    (hold : ∀ hv : p.reqValid = false, motive .load b (.inr ⟨hv, rfl⟩))
    (pass : ∀ legal : legalSelector b.dp.toInt = true ∧ legalSelector b.bl.toInt = true,
      motive .check (b.toPhase phaseOvlDp) (.inl ⟨legal, rfl⟩))
    (raise : ∀ illegal : ¬(legalSelector b.dp.toInt = true ∧ legalSelector b.bl.toInt = true),
      motive .check (b.raise .invalidArgument) (.inr ⟨illegal, rfl⟩))
    (noPoint : motive .ovlDp (b.toPhase phaseOvlBat) (.inl rfl))
    (point : ∀ (q : Fin 6) (hq : q.val ≤ 2), motive .ovlDp ((b.light q).toPhase phaseOvlBat) (.inr ⟨q, hq, rfl⟩))
    (battery : ∀ (g : GlyphBuffer) (kept : g.g0 = b.gb.g0 ∧ g.g1 = b.gb.g1 ∧ g.g2 = b.gb.g2),
      motive .ovlBat ({ b with gb := g }.toPhase phasePackOpc) ⟨g, kept, rfl⟩)
    (opcode : motive .packOpc ((b.pack Config.opc).toPhase phasePackAdr) rfl)
    (address : motive .packAdr (((b.pack Config.addr).setIdx 0).toPhase phasePackDat) rfl)
    (lastByte : ∀ h5 : b.idx = 5,
      motive .packDat (((b.pack (b.gb.get 5)).setIdx 0).toPhase phasePackPad) (.inl ⟨h5, rfl⟩))
    (byte : ∀ (j : Fin 6) (hj : b.idx.toNat = j.val) (h5 : b.idx ≠ 5),
      motive .packDat (((b.pack (b.gb.get j)).setIdx (b.idx + 1)).toPhase phasePackDat) (.inr ⟨j, hj, h5, rfl⟩))
    (padding : motive .packPad ((b.pack Config.pad).toPhase phaseEmit) rfl)
    (present : motive .emit (b.present.toPhase phaseIdle) rfl)
    (write : ∀ g0 g1 g2 g3 g4 g5, motive (.write g0 g1 g2 g3 g4 g5) b rfl)
    (init1 : motive .init1 b rfl) (init2 : motive .init2 b rfl)
    {i : Instr} {c : Block} (h : Effect p b i c) : motive i c h := by
  cases i with
  | load =>
    obtain ⟨hv, rfl⟩ | ⟨hv, rfl⟩ := h
    · exact accept hv
    · exact hold hv
  | check =>
    obtain ⟨legal, rfl⟩ | ⟨illegal, rfl⟩ := h
    · exact pass legal
    · exact raise illegal
  | ovlDp =>
    obtain rfl | ⟨q, hq, rfl⟩ := h
    · exact noPoint
    · exact point q hq
  | ovlBat =>
    obtain ⟨g, kept, rfl⟩ := h
    exact battery g kept
  | packDat =>
    obtain ⟨h5, rfl⟩ | ⟨j, hj, h5, rfl⟩ := h
    · exact lastByte h5
    · exact byte j hj h5
  | packOpc => cases h; exact opcode
  | packAdr => cases h; exact address
  | packPad => cases h; exact padding
  | emit => cases h; exact present
  | write => cases h; exact write ..
  | init1 => cases h; exact init1
  | init2 => cases h; exact init2

/-! ### The access matrix, column by column (10_state.md R38) -/

namespace Effect

variable {p : Ports} {b c : Block} {i : Instr}

theorem gb_kept (h : Effect p b i c) (hl : i ≠ .load) (hd : i ≠ .ovlDp) (hb : i ≠ .ovlBat) : c.gb = b.gb := by
  cases h using Effect.elim <;> simp at hl hd hb ⊢

/-- OVL.DP writes one of `GB[0]` to `GB[2]`. -/
theorem ovlDp_gb (h : Effect p b .ovlDp c) : ∃ q : Fin 6, q.val ≤ 2 ∧ ∀ k, k ≠ q → c.gb.get k = b.gb.get k := by
  obtain rfl | ⟨q, hq, rfl⟩ := h
  · exact ⟨0, by decide, fun _ _ => rfl⟩
  · exact ⟨q, hq, fun k hk => GlyphBuffer.get_light_other _ _ _ hk⟩

/-- OVL.BAT does not write `GB[0]` to `GB[2]`. -/
theorem ovlBat_gb (h : Effect p b .ovlBat c) : c.gb.g0 = b.gb.g0 ∧ c.gb.g1 = b.gb.g1 ∧ c.gb.g2 = b.gb.g2 := by
  obtain ⟨g, kept, rfl⟩ := h
  exact kept

/-- With a request on the port, LOAD accepts it. -/
theorem load_accepts (h : Effect p b .load c) (hv : p.reqValid = true) : c = b.accept p := by
  obtain ⟨-, rfl⟩ | ⟨hn, -⟩ := h
  · rfl
  · simp [hn] at hv

/-- A CHECK that passes writes no flag. -/
theorem check_passes (h : Effect p b .check c) (hd : legalSelector b.dp.toInt = true)
    (hb : legalSelector b.bl.toInt = true) : c.err = b.err ∧ c.ecode = b.ecode := by
  obtain ⟨-, rfl⟩ | ⟨illegal, -⟩ := h
  · exact ⟨rfl, rfl⟩
  · exact absurd ⟨hd, hb⟩ illegal

/-- A CHECK that fails raises `InvalidArgument`. -/
theorem check_raises (h : Effect p b .check c)
    (hn : ¬(legalSelector b.dp.toInt = true ∧ legalSelector b.bl.toInt = true)) : c.err = true ∧ c.ecode = 1 := by
  obtain ⟨legal, -⟩ | ⟨-, rfl⟩ := h
  · exact absurd legal hn
  · exact ⟨rfl, rfl⟩

theorem operands_kept (h : Effect p b i c) (hl : i ≠ .load) : b.SameOperands c := by
  cases h using Effect.elim <;> simp [Block.SameOperands] at hl ⊢

theorem accumulator_kept (h : Effect p b i c) (hl : i ≠ .load) (ho : i ≠ .packOpc) (ha : i ≠ .packAdr)
    (hd : i ≠ .packDat) (hp : i ≠ .packPad) : c.acc = b.acc ∧ c.nb = b.nb := by
  cases h using Effect.elim <;> simp at hl ho ha hd hp ⊢

theorem frame_kept (h : Effect p b i c) (he : i ≠ .emit) : c.frame = b.frame := by
  cases h using Effect.elim <;> simp at he ⊢

theorem idx_kept (h : Effect p b i c) (hl : i ≠ .load) (ha : i ≠ .packAdr) (hd : i ≠ .packDat) : c.idx = b.idx := by
  cases h using Effect.elim <;> simp at hl ha hd ⊢

theorem done_kept (h : Effect p b i c) (hl : i ≠ .load) (he : i ≠ .emit) : c.done = b.done := by
  cases h using Effect.elim <;> simp at hl he ⊢

theorem error_kept (h : Effect p b i c) (hl : i ≠ .load) (hc : i ≠ .check) : c.err = b.err ∧ c.ecode = b.ecode := by
  cases h using Effect.elim <;> simp at hl hc ⊢

/-- An operation that goes on with a request writes no flag. -/
theorem flags_kept (h : Effect p b i c) (hl : i ≠ .load) (busy : c.phase ≠ phaseIdle) : b.SameFlags c := by
  cases h using Effect.elim <;> simp [Block.SameFlags] at hl busy ⊢

theorem marks_kept (h : Effect p b i c) (hl : i ≠ .load) (he : i ≠ .emit) : b.SameMarks c := by
  cases h using Effect.elim <;> simp [Block.SameMarks] at hl he ⊢

end Effect

end Sys2Proof.Machine

/-! # The state family: whose move a step is, and the invariant

The steps of the sequencer and of the host (44_show_request.md R186), and the invariant of 10_state.md R41 kept by every
effect and so by every step. -/

namespace Sys2Proof.Machine

/-! ### Whose move a step is -/

/-- The sequencer decodes only a phase's own code (30_encoding.md R78). -/
theorem encode_of_decodePhase {c : BitVec 4} {i : Instr} (h : decodePhase c = .ok i) : encode i = .phase c := by
  unfold decodePhase at h
  split at h <;> cases h
  all_goals exact congrArg Code.phase (BitVec.eq_of_toNat_eq (by simp [*]))

/-- Only LOAD's phase is IDLE (30_encoding.md R78). -/
theorem phase_ne_idle_of_encode {c : BitVec 4} {i : Instr} (h : encode i = .phase c) (hl : i ≠ .load) :
    c ≠ phaseIdle := by
  rintro rfl
  cases i with
  | load => contradiction
  | write | init1 | init2 => cases h
  | check | ovlDp | ovlBat | packOpc | packAdr | packDat | packPad | emit => exact absurd (Code.phase.inj h) (by decide)

/-- From OVL.DP on, the phase code is 2 or more (30_encoding.md R78). -/
theorem two_le_of_encode {c : BitVec 4} {i : Instr} (h : encode i = .phase c) (hl : i ≠ .load) (hc : i ≠ .check) :
    2 ≤ c.toNat := by
  cases i with
  | load | check => contradiction
  | write | init1 | init2 => cases h
  | ovlDp | ovlBat | packOpc | packAdr | packDat | packPad | emit =>
    obtain rfl := Code.phase.inj h
    decide

/-- With the other agents at rest, a step is the micro-operation that `PHASE` names. -/
theorem step_eq_exec {s : State} {i : Instr} (hr : s.ports.rst = false) (hu : s.block.unusedCode = none)
    (ho : s.bus.outbox = none) (hm : s.hostMove = none) (hd : decodePhase s.block.phase = .ok i) : step s = exec i s := by
  simp [step, State.turn, hr, hu, ho, hm, hd]

/-- A move of the host is a step, once `rst` is released and the transport is free. -/
theorem step_eq_hostMove {s u : State} (hr : s.ports.rst = false) (hu : s.block.unusedCode = none)
    (ho : s.bus.outbox = none) (hm : s.hostMove = some u) : step s = .next u := by
  simp [step, State.turn, hr, hu, ho, hm]

/-- A step under an asserted `rst` is the block's reset (70_reset_and_hazards.md R231). -/
theorem step_eq_resetBlock {s : State} (hr : s.ports.rst = true) : step s = .next s.resetBlock := by
  simp [step, State.turn, hr]

/-- No move of the host touches a register of the block or the wire. -/
theorem State.hostMove_block {s u : State} (h : s.hostMove = some u) :
    u.block = s.block ∧ u.bus.wire = s.bus.wire := by
  obtain ⟨op, rest, -, -, -, -, rfl⟩ | ⟨after, -, -, rfl⟩ | ⟨after, -, -, rfl⟩ | ⟨-, -, rfl⟩ | ⟨-, -, rfl⟩ :=
    hostMove_cases h
  · exact startCall_block _ op
  · exact ⟨rfl, rfl⟩
  · exact readResult_block s after
  · exact ⟨rfl, rfl⟩
  · exact ⟨rfl, rfl⟩

/-- In a quiet state, a step of a busy block is the micro-operation that `PHASE` names. -/
theorem step_of_busy {s t : State} (quiet : s.Quiet) (busy : s.block.phase ≠ phaseIdle) (h : step s = .next t) :
    ∃ i, s.block.unusedCode = none ∧ decodePhase s.block.phase = .ok i ∧ exec i s = .next t := by
  obtain ⟨hr, ho, hc⟩ := quiet
  obtain ⟨hr', -⟩ | ⟨_, _, -, -, ho', -⟩ | ⟨_, -, -, ho', -⟩ | ⟨i, -, hu, -, -, hd, hx⟩ | ⟨-, -, -, hm⟩ := step_cases h
  · simp [hr] at hr'
  · simp [ho] at ho'
  · simp [ho] at ho'
  · exact ⟨i, hu, hd, hx⟩
  · simp [State.hostMove_none hc (.inl busy)] at hm

/-- What a step does to the block: its reset, nothing, or the effect of the micro-operation that `PHASE` names. -/
theorem step_block_cases {s t : State} (h : step s = .next t) :
    t.block = Block.reset ∨ t.block = s.block ∨
    ∃ i, decodePhase s.block.phase = .ok i ∧ Effect s.ports s.block i t.block := by
  obtain ⟨-, rfl⟩ | ⟨i, call, -, -, -, hd, hx⟩ | ⟨call, -, -, -, rfl⟩ | ⟨i, -, -, -, -, hd, hx⟩ | ⟨-, -, -, hm⟩ :=
    step_cases h
  · exact .inl rfl
  · obtain ⟨out, hout⟩ := exec_transfer hd s.takeOutbox
    cases hout.symm.trans hx
    exact .inr (.inl rfl)
  · exact .inr (.inl rfl)
  · exact .inr (.inr ⟨i, hd, exec_effect hx⟩)
  · exact .inr (.inl (State.hostMove_block hm).1)

/-- Only LOAD reads the request port: any other operation does the same under other levels there (10_state.md R35). -/
theorem exec_drive {i : Instr} {s t : State} (inp : Inputs) (hl : i ≠ .load) (h : exec i s = .next t) :
    exec i (s.drive inp) = .next (t.drive inp) := by
  cases i with
  | load => contradiction
  | ovlDp =>
    simp only [exec, execOvlDp] at h
    split at h
    · cases h
      exact exec_ovlDp_none (s := s.drive inp) ‹_›
    · split at h <;> cases h
      exact exec_ovlDp_some (s := s.drive inp) ‹_› ‹_›
  | packDat =>
    simp only [exec, execPackDat] at h
    split at h <;> cases h
    exact exec_packDat_some (s := s.drive inp) ‹_›
  | write | check | ovlBat | packOpc | packAdr | packPad | emit | init1 | init2 =>
    cases h
    rfl

/-! ### A request in progress: `PHASE` and `IDX` determine `NB` and `ACC` (R41 (e), 42_frame_builder.md R147) -/

/-- The clauses of the invariant about the registers that move while a request is in progress. -/
def Block.InProgress (b : Block) : Prop :=
  b.phase ≠ phaseIdle ∧ b.phase.toNat ≤ 8 ∧ (b.idx.toNat ≤ 5 ∧ (b.idx ≠ 0 → b.phase = phasePackDat)) ∧
  b.nb.toNat = bitsAppended b.phase b.idx ∧ b.acc = bitsPacked b.gb b.phase b.idx

/-- Nothing is appended before PACK.OPC has run. -/
theorem bitsAppended_of_le_four {phase : BitVec 4} (h : phase.toNat ≤ 4) (idx : BitVec 3) :
    bitsAppended phase idx = 0 := by
  unfold bitsAppended
  split <;> omega

theorem bitsPacked_of_le_four {phase : BitVec 4} (h : phase.toNat ≤ 4) (g : GlyphBuffer) (idx : BitVec 3) :
    bitsPacked g phase idx = 0 := by
  unfold bitsPacked
  split
  · omega
  · omega
  · omega
  · omega
  · rfl

namespace Block.Inv

variable {b c : Block} {p : Ports} {i : Instr}

/-- Outside PACK.DAT, `IDX` is 0. -/
theorem idx_eq_zero (h : b.Inv) (hp : b.phase ≠ phasePackDat) : b.idx = 0 :=
  not_not.mp fun hi => hp (h.idx_only_in_dat hi)

/-- CHECK and the overlay move only `PHASE` and glyph bytes, before anything is appended. -/
theorem inProgress_of_sameAccumulator (h : b.Inv) (going : b.phase ≠ phaseIdle) (hb : b.phase.toNat ≤ 4)
    (busy : c.phase ≠ phaseIdle) (hc : c.phase.toNat ≤ 4) (same : b.SameAccumulator c) : c.InProgress := by
  obtain ⟨acc, nb, idx⟩ := same
  have idx0 : c.idx = 0 := idx.trans (h.idx_eq_zero (by rintro hp; simp [hp] at hb))
  refine ⟨busy, by omega, ⟨by simp [idx0], fun hi => absurd idx0 hi⟩, ?_, ?_⟩
  · rw [nb, h.nb_determined going, bitsAppended_of_le_four hb, bitsAppended_of_le_four hc]
  · rw [acc, h.acc_exact going, bitsPacked_of_le_four hb, bitsPacked_of_le_four hc]

theorem inProgress_opcode (h : b.Inv) (hp : b.phase = phasePackOpc) :
    ((b.pack Config.opc).toPhase phasePackAdr).InProgress := by
  have going : b.phase ≠ phaseIdle := by simp [hp]
  have idx := h.idx_eq_zero (by simp [hp])
  have nb : b.nb = 0 := BitVec.eq_of_toNat_eq (by simp [h.nb_determined going, hp, bitsAppended])
  have acc : b.acc = 0 := by simp [h.acc_exact going, hp, bitsPacked]
  exact ⟨by simp, by simp, ⟨h.idx_le, by simp [idx]⟩, by simp [nb, bitsAppended], by simp [acc, bitsPacked]⟩

theorem inProgress_address (h : b.Inv) (hp : b.phase = phasePackAdr) :
    (((b.pack Config.addr).setIdx 0).toPhase phasePackDat).InProgress := by
  have going : b.phase ≠ phaseIdle := by simp [hp]
  have nb : b.nb = 3 := BitVec.eq_of_toNat_eq (by simp [h.nb_determined going, hp, bitsAppended])
  have acc : b.acc = append 0 Config.opc := by simp [h.acc_exact going, hp, bitsPacked]
  exact ⟨by simp, by simp, ⟨by simp, by simp⟩, by simp [nb, bitsAppended],
    by simp [acc, bitsPacked, packHeader, packGlyphs]⟩

/-- A pass of PACK.DAT adds eight bits to what `NB` counts and the byte that `IDX` names to `ACC`. -/
theorem pack_byte (h : b.Inv) (hp : b.phase = phasePackDat) {j : Fin 6} (hj : b.idx.toNat = j.val) :
    (b.pack (b.gb.get j)).nb.toNat = 9 + 8 * (j.val + 1) ∧
    (b.pack (b.gb.get j)).acc = packGlyphs (packHeader 0) b.gb (j.val + 1) := by
  have going : b.phase ≠ phaseIdle := by simp [hp]
  have nb : b.nb.toNat = 9 + 8 * j.val := by simp [h.nb_determined going, hp, bitsAppended, hj]
  have acc : b.acc = packGlyphs (packHeader 0) b.gb j.val := by simp [h.acc_exact going, hp, bitsPacked, hj]
  constructor
  · simp only [Block.pack_nb, BitVec.toNat_add, nb, BitVec.toNat_ofNat]
    omega
  · rw [Block.pack_acc, acc, packGlyphs_succ]

theorem inProgress_lastByte (h : b.Inv) (hp : b.phase = phasePackDat) (h5 : b.idx = 5) :
    (((b.pack (b.gb.get 5)).setIdx 0).toPhase phasePackPad).InProgress := by
  obtain ⟨nb, acc⟩ := h.pack_byte hp (j := 5) (by simp [h5])
  exact ⟨by simp, by simp, ⟨by simp, by simp⟩, nb, acc⟩

theorem inProgress_byte (h : b.Inv) (hp : b.phase = phasePackDat) {j : Fin 6} (hj : b.idx.toNat = j.val)
    (h5 : b.idx ≠ 5) : (((b.pack (b.gb.get j)).setIdx (b.idx + 1)).toPhase phasePackDat).InProgress := by
  obtain ⟨nb, acc⟩ := h.pack_byte hp hj
  have lt : b.idx.toNat < 5 := lt_of_le_of_ne h.idx_le fun he => h5 (BitVec.eq_of_toNat_eq he)
  have idx : (b.idx + 1).toNat = j.val + 1 := by
    rw [BitVec.toNat_add, hj]
    exact Nat.mod_eq_of_lt (show j.val + 1 < 8 by omega)
  exact ⟨by simp, by simp, ⟨idx.trans_le (by omega), fun _ => rfl⟩, nb.trans (congrArg (9 + 8 * ·) idx.symm),
    acc.trans (congrArg (packGlyphs (packHeader 0) b.gb) idx.symm)⟩

theorem inProgress_padding (h : b.Inv) (hp : b.phase = phasePackPad) :
    ((b.pack Config.pad).toPhase phaseEmit).InProgress := by
  have going : b.phase ≠ phaseIdle := by simp [hp]
  have idx := h.idx_eq_zero (by simp [hp])
  have nb : b.nb = 57 := BitVec.eq_of_toNat_eq (by simp [h.nb_determined going, hp, bitsAppended])
  have acc : b.acc = packGlyphs (packHeader 0) b.gb 6 := by simp [h.acc_exact going, hp, bitsPacked]
  exact ⟨by simp, by simp, ⟨h.idx_le, by simp [idx]⟩, by simp [nb, bitsAppended],
    by simp [acc, bitsPacked, buildFrame, packFrom]⟩

/-- Every operation that goes on with the request carries on from what the registers hold. -/
theorem inProgress_of_effect (h : b.Inv) (hp : encode i = .phase b.phase) (he : Effect p b i c) (hl : i ≠ .load)
    (busy : c.phase ≠ phaseIdle) : c.InProgress := by
  have going : b.phase ≠ phaseIdle := phase_ne_idle_of_encode hp hl
  have phase : ∀ q, encode i = .phase q → b.phase = q := fun q hq => Code.phase.inj (hp.symm.trans hq)
  cases he using Effect.elim with
  | accept | hold => exact absurd rfl hl
  | raise | present => exact absurd rfl busy
  | pass | noPoint | point | battery =>
    exact h.inProgress_of_sameAccumulator going (by simp [phase _ rfl]) busy (by simp) ⟨rfl, rfl, rfl⟩
  | opcode => exact h.inProgress_opcode (phase _ rfl)
  | address => exact h.inProgress_address (phase _ rfl)
  | lastByte h5 => exact h.inProgress_lastByte (phase _ rfl) h5
  | byte j hj h5 => exact h.inProgress_byte (phase _ rfl) hj h5
  | padding => exact h.inProgress_padding (phase _ rfl)
  | write | init1 | init2 => cases hp

end Block.Inv

/-! ### The invariant of R41 -/

/-- The reset values meet the invariant: IDLE, no flag set and nothing appended (R39). -/
theorem Block.reset_inv : Block.reset.Inv where
  phase_legal := by decide
  idx_le := by decide
  idx_only_in_dat := by decide
  not_done_and_err := by decide
  clear_while_busy := by decide
  nb_determined := by decide
  acc_bounded := by decide
  frame_form := by decide
  acc_exact := by decide
  selectors_checked := by decide
  ecode_of_err := by decide
  loaded_while_busy := by decide
  framed_when_done := by decide
  frame_of_request := by decide
  frame_wellFormed := by decide
  nb_in_idle := by decide

namespace Block.Inv

variable {b c : Block} {p : Ports} {i : Instr}

/-- LOAD begins a request with an empty accumulator and cleared flags (R120). -/
theorem accept (h : b.Inv) : (b.accept p).Inv where
  phase_legal := by simp
  idx_le := by simp
  idx_only_in_dat := by simp
  not_done_and_err := by simp
  clear_while_busy := by simp
  nb_determined := by simp [bitsAppended]
  acc_bounded := by simp
  frame_form := by simp
  acc_exact := by simp [bitsPacked]
  selectors_checked := by simp
  ecode_of_err := by simp
  loaded_while_busy := by simp
  framed_when_done := by simp
  frame_of_request := by simp
  frame_wellFormed := h.frame_wellFormed
  nb_in_idle := by simp

/-- A failing CHECK ends the request before anything was appended (R203). -/
theorem raise (h : b.Inv) (hp : b.phase = phaseCheck) : (b.raise .invalidArgument).Inv := by
  have going : b.phase ≠ phaseIdle := by simp [hp]
  have done : b.done = false := (h.clear_while_busy going).1
  have idx : b.idx = 0 := h.idx_eq_zero (by simp [hp])
  have nb : b.nb = 0 := BitVec.eq_of_toNat_eq (by simp [h.nb_determined going, hp, bitsAppended])
  exact {
    phase_legal := by simp
    idx_le := h.idx_le
    idx_only_in_dat := by simp [idx]
    not_done_and_err := by simp [done]
    clear_while_busy := by simp
    nb_determined := by simp
    acc_bounded := by simp
    frame_form := by simp [done]
    acc_exact := by simp
    selectors_checked := by simp
    ecode_of_err := rfl
    loaded_while_busy := by simp
    framed_when_done := by simp [done]
    frame_of_request := by simp [done]
    frame_wellFormed := h.frame_wellFormed
    nb_in_idle := fun _ => .inl nb }

/-- EMIT presents a complete frame of `GB` (R29, R145). -/
theorem present (h : b.Inv) (hp : b.phase = phaseEmit) : (b.present.toPhase phaseIdle).Inv := by
  have going : b.phase ≠ phaseIdle := by simp [hp]
  have err : b.err = false := (h.clear_while_busy going).2
  have idx : b.idx = 0 := h.idx_eq_zero (by simp [hp])
  have nb : b.nb = 64 := BitVec.eq_of_toNat_eq (by simp [h.nb_determined going, hp, bitsAppended])
  have acc : b.acc = buildFrame b.gb := by simp [h.acc_exact going, hp, bitsPacked]
  have wellFormed : frameWellFormed b.acc = true := acc ▸ frameWellFormed_buildFrame b.gb
  exact {
    phase_legal := by simp
    idx_le := h.idx_le
    idx_only_in_dat := by simp [idx]
    not_done_and_err := by simp [err]
    clear_while_busy := by simp
    nb_determined := by simp
    acc_bounded := by simp
    frame_form := fun _ => extract_of_frameWellFormed wellFormed
    acc_exact := by simp
    selectors_checked := by simp
    ecode_of_err := h.ecode_of_err
    loaded_while_busy := by simp
    framed_when_done := fun _ => h.loaded_while_busy going
    frame_of_request := fun _ => acc
    frame_wellFormed := fun _ => wellFormed
    nb_in_idle := fun _ => .inr nb }

/-- After an operation that goes on with the request, both selectors have been checked. -/
theorem selectors_of_effect (h : b.Inv) (hp : encode i = .phase b.phase) (he : Effect p b i c) (hl : i ≠ .load)
    (busy : c.phase ≠ phaseIdle) : legalSelector c.dp.toInt = true ∧ legalSelector c.bl.toInt = true := by
  by_cases hc : i = .check
  · subst hc
    obtain ⟨legal, rfl⟩ | ⟨-, rfl⟩ := he
    · exact legal
    · exact absurd rfl busy
  · obtain ⟨hd, hb⟩ := he.operands_kept hl
    rw [hd, hb]
    exact h.selectors_checked (two_le_of_encode hp hl hc)

/-- An operation that goes on with the request keeps the invariant: what it moves is determined again, and it leaves the
flags, the marks and `FRAME` as they are. -/
theorem advance (h : b.Inv) (hp : encode i = .phase b.phase) (he : Effect p b i c) (hl : i ≠ .load)
    (busy : c.phase ≠ phaseIdle) : c.Inv := by
  have notEmit : i ≠ .emit := by
    rintro rfl
    exact busy (congrArg Block.phase he)
  have going : b.phase ≠ phaseIdle := phase_ne_idle_of_encode hp hl
  obtain ⟨-, phase, ⟨idx, dat⟩, nb, acc⟩ := h.inProgress_of_effect hp he hl busy
  have frame : c.frame = b.frame := he.frame_kept notEmit
  obtain ⟨loaded, framed⟩ := he.marks_kept hl notEmit
  obtain ⟨done, err, ecode⟩ := he.flags_kept hl busy
  have clear := h.clear_while_busy going
  rw [← done, ← err] at clear
  exact {
    phase_legal := phase
    idx_le := idx
    idx_only_in_dat := dat
    not_done_and_err := by simp [clear]
    clear_while_busy := fun _ => clear
    nb_determined := fun _ => nb
    acc_bounded := fun _ => by
      rw [nb, acc]
      exact bitsPacked_toNat_lt _ _ idx
    frame_form := by simp [clear]
    acc_exact := fun _ => acc
    selectors_checked := fun _ => h.selectors_of_effect hp he hl busy
    ecode_of_err := by rw [ecode, err]; exact h.ecode_of_err
    loaded_while_busy := fun _ => loaded.trans (h.loaded_while_busy going)
    framed_when_done := by simp [clear]
    frame_of_request := by simp [clear]
    frame_wellFormed := by rw [framed, frame]; exact h.frame_wellFormed
    nb_in_idle := fun idle => absurd idle busy }

/-- Every operation keeps the invariant in its own phase. -/
theorem of_effect (h : b.Inv) (hp : encode i = .phase b.phase) (he : Effect p b i c) : c.Inv := by
  by_cases go : i ≠ .load ∧ c.phase ≠ phaseIdle
  · exact h.advance hp he go.1 go.2
  · cases he using Effect.elim with
    | accept => exact h.accept
    | hold => exact h
    | raise => exact h.raise (Code.phase.inj hp).symm
    | present => exact h.present (Code.phase.inj hp).symm
    | write | init1 | init2 => cases hp
    | _ => exact absurd ⟨by simp, by simp⟩ go

end Block.Inv

/-- A step of any agent keeps the invariant. -/
theorem step_keeps_inv {s t : State} (hi : s.block.Inv) (h : step s = .next t) : t.block.Inv := by
  obtain reset | same | ⟨i, hd, he⟩ := step_block_cases h
  · exact reset ▸ Block.reset_inv
  · exact same ▸ hi
  · exact hi.of_effect (encode_of_decodePhase hd) he

/-- Every reachable state meets the invariant. -/
theorem Reachable.inv {s : State} (h : Reachable s) : s.block.Inv :=
  h.invariant Block.reset_inv fun _ _ => step_keeps_inv

end Sys2Proof.Machine

/-! # The state family: the obligations of 10_state.md -/

namespace Sys2Proof.Machine

/-! ### Tier 3 -/

/-- Settles O51: a step is a reset, leaves the block as it is, or runs the micro-operation of its phase, whose effect keeps
the invariant. -/
theorem stepKeepsTheInvariant : Obligations.StepKeepsTheInvariant :=
  fun _ _ => step_keeps_inv

/-! ### Tier 2 -/

/-- Settles O32, column by column of the access matrix. -/
theorem microOpsWriteOnlyTheirRegisters : Obligations.MicroOpsWriteOnlyTheirRegisters := by
  intro i s t h
  have he := exec_effect h
  refine ⟨he.gb_kept, ?_, ?_, he.operands_kept, he.accumulator_kept, he.frame_kept, he.idx_kept, he.done_kept,
    he.error_kept, ?_, ?_⟩
  · rintro rfl
    exact he.ovlDp_gb
  · rintro rfl
    exact he.ovlBat_gb
  · rintro rfl hd hb
    exact he.check_passes hd hb
  · rintro g (rfl | rfl | rfl) <;> cases h <;> rfl

/-- Settles O38: the turn is the host's, and none of its moves touches the block or the wire. -/
theorem hostMovesLeaveTheBlock : Obligations.HostMovesLeaveTheBlock :=
  fun _ _ hr hu ho hm => ⟨step_eq_hostMove hr hu ho hm, State.hostMove_block hm⟩

/-- Settles O44: a busy block's step is a micro-operation other than LOAD, and only LOAD reads the port. -/
theorem busyBlockIgnoresTheRequestPort : Obligations.BusyBlockIgnoresTheRequestPort := by
  intro s t inp ⟨hr, ho, hc⟩ busy h
  obtain ⟨i, hu, hd, hx⟩ := step_of_busy ⟨hr, ho, hc⟩ busy h
  have notLoad : i ≠ .load := by
    rintro rfl
    exact busy (Code.phase.inj (encode_of_decodePhase hd)).symm
  have step_drive : step (s.drive inp) = exec i (s.drive inp) :=
    step_eq_exec hr hu ho (State.hostMove_none hc (.inl busy)) hd
  rw [step_drive]
  exact exec_drive inp notLoad hx

/-- Settles O47: the flag columns of the access matrix, and the invariant. -/
theorem flagRules : Obligations.FlagRules := by
  refine ⟨?_, ?_, ?_, ?_, fun i s t hl he h => (exec_effect h).done_kept hl he,
    fun i s t hl hc h => (exec_effect h).error_kept hl hc, fun s hs => ?_⟩
  · rintro s t ⟨⟩
    rfl
  · intro s t hv h
    rw [(exec_effect h).load_accepts hv]
    exact ⟨rfl, rfl, rfl⟩
  · intro s t hr h
    cases (step_eq_resetBlock hr).symm.trans h
    exact ⟨rfl, rfl, rfl⟩
  · intro s t h
    split
    · rename_i legal
      exact (exec_effect h).check_passes legal.1 legal.2
    · rename_i illegal
      exact (exec_effect h).check_raises illegal
  · have inv := hs.inv
    refine ⟨inv.frame_of_request, ?_, inv.not_done_and_err⟩
    rw [inv.ecode_of_err]
    cases s.block.err
    · exact .inl rfl
    · exact .inr rfl

/-- Settles O52: R41 is part of the invariant. -/
theorem reachableStatesMeetTheInvariants : Obligations.ReachableStatesMeetTheInvariants :=
  fun _ hs => hs.inv.toManualInv

/-- Settles O54: the columns of the marks in the access matrix, and the invariant. -/
theorem unwrittenRegistersAreNeverRead : Obligations.UnwrittenRegistersAreNeverRead := by
  refine ⟨fun s hs => ⟨hs.inv.loaded_while_busy, hs.inv.framed_when_done⟩, ?_, ?_,
    fun i s t hl he h => (exec_effect h).marks_kept hl he, ?_,
    fun s => ⟨State.frameOut_framed, Block.gbOut_loaded⟩, fun s hs => ⟨?_, ?_⟩⟩
  · intro s t hv h
    rw [(exec_effect h).load_accepts hv]
    exact ⟨rfl, rfl⟩
  · rintro s t ⟨⟩
    exact ⟨rfl, rfl⟩
  · intro s t hr h
    cases (step_eq_resetBlock hr).symm.trans h
    exact ⟨rfl, rfl⟩
  · intro hdone
    rw [State.frameOut_framed (hs.inv.framed_when_done hdone), hs.inv.frame_of_request hdone]
  · intro busy
    exact Block.gbOut_loaded (hs.inv.loaded_while_busy busy)

/-! ### Tier 1 -/

/-- Settles O36: with every other agent at rest the turn is the sequencer's. -/
theorem stepRunsTheMicroOpOfThePhase : Obligations.StepRunsTheMicroOpOfThePhase :=
  fun _ _ => step_eq_exec

/-- Settles O46: `STATUS` is a function of the block, and its fields stand where R31 puts them. -/
theorem statusView : Obligations.StatusView := by
  refine ⟨fun s i op => ⟨rfl, rfl⟩, fun b => ⟨BitVec.eq_of_getLsbD_eq fun i hi => ?_, ?_, ?_, ?_, bne_iff_ne⟩⟩
  · rw [BitVec.getLsbD_extractLsb', b.getLsbD_status]
    simp [hi, Nat.add_comm 3 i]
  · rw [b.getLsbD_status]
    simp
  · rw [b.getLsbD_status]
    simp
  · rw [b.getLsbD_status]
    simp

/-- Settles O48, by reading off the reset state. -/
theorem resetValues : Obligations.ResetValues :=
  ⟨rfl, rfl, rfl, rfl, rfl, rfl, rfl, rfl, rfl⟩

/-- Settles O50: the clauses of the invariant hold of the reset values one by one. -/
theorem resetKeepsTheInvariant : Obligations.ResetKeepsTheInvariant :=
  Block.reset_inv

end Sys2Proof.Machine

/-! # The memory family: the byte view of a frame and the wire

The order of the bits on the wire (20_memory.md R57) and the bytes of a frame, which straddle its glyph bytes (R58). -/

namespace Sys2Proof.Machine

/-! ### The order of the wire -/

theorem wireBits_cons (b : Byte) (bytes : List Byte) : wireBits (b :: bytes) =
    [b.getLsbD 7, b.getLsbD 6, b.getLsbD 5, b.getLsbD 4,
      b.getLsbD 3, b.getLsbD 2, b.getLsbD 1, b.getLsbD 0] ++ wireBits bytes :=
  List.flatMap_cons ..

theorem length_wireBits (bytes : List Byte) : (wireBits bytes).length = 8 * bytes.length := by
  induction bytes with
  | nil => rfl
  | cons b bytes ih => simp [wireBits_cons, ih, Nat.mul_add]

/-- R57 for any transfer: bytes leave in the order of the list, and each from bit 7 down. -/
theorem getElem?_wireBits (bytes : List Byte) (k : Nat) {j : Nat} (hj : j < 8) :
    (wireBits bytes)[8 * k + j]? = bytes[k]?.map (·.getLsbD (7 - j)) := by
  induction bytes generalizing k with
  | nil => rfl
  | cons b bytes ih =>
    rw [wireBits_cons]
    cases k with
    | zero => interval_cases j <;> rfl
    | succ k =>
      rw [List.getElem?_append_right (by simp; omega)]
      simpa [show 8 * (k + 1) + j - 8 = 8 * k + j by omega] using ih k

/-- Byte `k` of a word is `FRAME[63-8k : 56-8k]` (R56). -/
theorem getElem?_frameBytes (w : FrameWord) {k : Nat} (hk : k < 8) :
    (frameBytes w)[k]? = some (w.extractLsb' (56 - 8 * k) 8) := by
  interval_cases k <;> rfl

/-- R57: a word leaves from bit 63 down to bit 0. -/
theorem getElem?_wireBits_frameBytes (w : FrameWord) {n : Nat} (hn : n < 64) :
    (wireBits (frameBytes w))[n]? = some (w.getLsbD (63 - n)) := by
  have hj : n % 8 < 8 := Nat.mod_lt _ (by decide)
  have hbit : 56 - 8 * (n / 8) + (7 - n % 8) = 63 - n := by omega
  calc (wireBits (frameBytes w))[n]?
    _ = (wireBits (frameBytes w))[8 * (n / 8) + n % 8]? := by rw [Nat.div_add_mod]
    _ = some ((w.extractLsb' (56 - 8 * (n / 8)) 8).getLsbD (7 - n % 8)) := by
      rw [getElem?_wireBits _ _ hj, getElem?_frameBytes w (by omega), Option.map_some]
    _ = some (w.getLsbD (63 - n)) := by
      rw [BitVec.getLsbD_extractLsb', hbit, decide_eq_true (by omega), Bool.true_and]

/-- The first three bits on the wire of a well-formed frame are its opcode. -/
theorem take_wireBits_of_frameWellFormed {w : FrameWord} (h : frameWellFormed w = true) :
    (wireBits (frameBytes w)).take 3 = [true, false, true] := by
  have header (i : Nat) : (w.extractLsb' 55 9).getLsbD i = (0b101000000#9).getLsbD i :=
    congrArg (·.getLsbD i) (extract_of_frameWellFormed h).1
  have h63 : w.getLsbD 63 = true := by simpa using header 8
  have h62 : w.getLsbD 62 = false := by simpa using header 7
  have h61 : w.getLsbD 61 = true := by simpa using header 6
  have leading : (wireBits (frameBytes w)).take 3 = [w.getLsbD 63, w.getLsbD 62, w.getLsbD 61] := by
    simp [frameBytes, wireBits_cons]
  rw [leading, h63, h62, h61]

/-! ### The bytes of a frame -/

/-- R58: the nine bits of the header shift every glyph byte by one bit against the bytes of the frame. -/
theorem frameOfGlyphs_eq_wordOfBytes (g : GlyphBuffer) : frameOfGlyphs g =
    wordOfBytes 0xA0 (0#1 ++ g.g0.extractLsb' 1 7)
      (g.g0.extractLsb' 0 1 ++ g.g1.extractLsb' 1 7) (g.g1.extractLsb' 0 1 ++ g.g2.extractLsb' 1 7)
      (g.g2.extractLsb' 0 1 ++ g.g3.extractLsb' 1 7) (g.g3.extractLsb' 0 1 ++ g.g4.extractLsb' 1 7)
      (g.g4.extractLsb' 0 1 ++ g.g5.extractLsb' 1 7) (g.g5.extractLsb' 0 1 ++ 0#7) := by
  apply BitVec.eq_of_getLsbD_eq
  intro i hi
  simp only [frameOfGlyphs, wordOfBytes, Config.opc, Config.addr, Config.pad, BitVec.getLsbD_cast,
    BitVec.getLsbD_append, BitVec.getLsbD_extractLsb']
  interval_cases i <;> simp

/-! ### The selector of OVL.DP -/

/-- A legal selector is -1 or names a glyph register of OVL.DP (41_overlay.md R122). -/
theorem legalSelector_iff_dpIndex (dp : Sel) :
    legalSelector dp.toInt = true ↔ dp.toInt = -1 ∨ (dpIndex dp).isSome = true := by
  have index : (dpIndex dp).isSome = true ↔ dp.toInt = 0 ∨ dp.toInt = 1 ∨ dp.toInt = 2 := by
    unfold dpIndex
    split_ifs <;> simp [*]
  rw [index]
  simp [legalSelector, or_assoc]

/-- OVL.DP stops on a selector that is not -1 and names no register. -/
theorem exec_ovlDp_fault {s : State} (h : s.block.dp.toInt ≠ -1) (hi : dpIndex s.block.dp = none) :
    exec .ovlDp s = .fault .uncheckedSelector := by
  simp [exec, execOvlDp, h, hi]

/-- OVL.DP stops exactly on the selectors that CHECK raises on (20_memory.md R51, 41_overlay.md R121). -/
theorem exec_ovlDp_fault_iff (s : State) :
    exec .ovlDp s = .fault .uncheckedSelector ↔ legalSelector s.block.dp.toInt = false := by
  rw [← Bool.not_eq_true, legalSelector_iff_dpIndex]
  by_cases h : s.block.dp.toInt = -1
  · simp [exec_ovlDp_none h, h]
  · cases hi : dpIndex s.block.dp with
    | none => simp [exec_ovlDp_fault h hi, h]
    | some i => simp [exec_ovlDp_some h hi]

/-! ### The obligations of 20_memory.md -/

/-- Settles O7: the frame is the word of the eight straddling bytes. -/
theorem frameBytesStraddle : Obligations.FrameBytesStraddle := by
  intro g
  rw [buildFrame_eq_frameOfGlyphs, frameOfGlyphs_eq_wordOfBytes, frameBytes_wordOfBytes]

/-- Settles O8: the order of the wire holds of every word, and WRITE clocks out the frame that the block builds. -/
theorem wireOrderIsMostSignificantFirst : Obligations.WireOrderIsMostSignificantFirst := by
  refine ⟨fun w _ hn => getElem?_wireBits_frameBytes w hn, fun g s => ?_⟩
  refine ⟨s.clockOut (frameBytes (frameOfGlyphs g)), Config.transferFails s.bus.wire.length, rfl, ?_,
    length_wireBits _, take_wireBits_of_frameWellFormed (frameWellFormed_buildFrame g)⟩
  rw [buildFrame_eq_frameOfGlyphs, State.clockOut_wire]

/-- Settles O22: the case split of OVL.DP, and the invariant, which holds checked selectors from OVL_DP on. -/
theorem ovlDpStopsOnlyOnUncheckedSelectors : Obligations.OvlDpStopsOnlyOnUncheckedSelectors := by
  refine ⟨exec_ovlDp_fault_iff, fun s hs hp => ?_⟩
  have checked : s.block.phase.toNat ≥ 2 := hp ▸ le_rfl
  exact (hs.inv.selectors_checked checked).1

end Sys2Proof.Machine

/-! # The encoding family: frames, codes and the two round trips

Which words are frames and where their fields stand (30_encoding.md R71 to R73), decoding against encoding (R78, R84),
and the codes that no rule uses (R82). -/

namespace Sys2Proof.Machine

/-! ### The fields of a frame -/

/-- A field of a field is a field of the word. -/
theorem extract_extract {n start len start' len' : Nat} (x : BitVec n) (h : start' + len' ≤ len) :
    (x.extractLsb' start len).extractLsb' start' len' = x.extractLsb' (start + start') len' := by
  apply BitVec.eq_of_getLsbD_eq
  intro i hi
  simp [hi, show start' + i < len by omega, Nat.add_assoc]

/-- R71: byte `i` of a frame is `GB[i]`; below it stand the padding and the bytes after `i`. -/
theorem extract_frameOfGlyphs (g : GlyphBuffer) (i : Fin 6) :
    (frameOfGlyphs g).extractLsb' (47 - 8 * i.val) 8 = g.get i := by
  match i with
  | 0 | 1 | 2 | 3 | 4 | 5 =>
    simp only [frameOfGlyphs, BitVec.cast_eq]
    repeat rw [BitVec.extractLsb'_append_eq_of_le (by decide)]
    exact BitVec.extractLsb'_append_eq_right

/-- The data field of a word, byte by byte (30_encoding.md R73). -/
theorem get_glyphsOfFrame (w : FrameWord) (i : Fin 6) :
    (glyphsOfFrame w).get i = w.extractLsb' (47 - 8 * i.val) 8 := by
  match i with
  | 0 | 1 | 2 | 3 | 4 | 5 => rfl

@[simp] theorem glyphsOfFrame_frameOfGlyphs (g : GlyphBuffer) : glyphsOfFrame (frameOfGlyphs g) = g :=
  GlyphBuffer.eq_of_get fun i => (get_glyphsOfFrame _ i).trans (extract_frameOfGlyphs g i)

/-- Any word is its header, its data field and its padding, put together. -/
theorem append_fields (w : FrameWord) :
    w.extractLsb' 55 9 ++ w.extractLsb' 47 8 ++ w.extractLsb' 39 8 ++ w.extractLsb' 31 8 ++ w.extractLsb' 23 8 ++
      w.extractLsb' 15 8 ++ w.extractLsb' 7 8 ++ w.extractLsb' 0 7 = w := by
  apply BitVec.eq_of_getLsbD_eq
  intro i hi
  simp only [BitVec.getLsbD_append, BitVec.getLsbD_extractLsb']
  interval_cases i <;> simp

/-- R72: the six bytes of a frame stand together as its 48-bit data field. -/
theorem frameOfGlyphs_eq_dataField (g : GlyphBuffer) : frameOfGlyphs g =
    BitVec.cast rfl (0b101#3 ++ 0b000000#6 ++ (g.g0 ++ g.g1 ++ g.g2 ++ g.g3 ++ g.g4 ++ g.g5) ++ 0b0000000#7) := by
  apply BitVec.eq_of_getLsbD_eq
  intro i hi
  simp only [frameOfGlyphs, Config.opc, Config.addr, Config.pad, BitVec.getLsbD_cast, BitVec.getLsbD_append]
  interval_cases i <;> simp

/-- R72: the constant fields around a data field, as 64-bit arithmetic. -/
theorem append_constants_eq_or (d : BitVec 48) :
    BitVec.cast rfl (0b101#3 ++ 0b000000#6 ++ d ++ 0b0000000#7) = 0xA000000000000000#64 ||| (d.setWidth 64 <<< 7) := by
  apply BitVec.eq_of_getLsbD_eq
  intro i hi
  simp only [BitVec.getLsbD_cast, BitVec.getLsbD_append, BitVec.getLsbD_or, BitVec.getLsbD_shiftLeft,
    BitVec.getLsbD_setWidth]
  interval_cases i <;> simp

/-- R73: building the frame of the data field of a well-formed frame gives the frame back. -/
theorem frameOfGlyphs_glyphsOfFrame {w : FrameWord} (h : frameWellFormed w = true) :
    frameOfGlyphs (glyphsOfFrame w) = w := by
  obtain ⟨header, padding⟩ := extract_of_frameWellFormed h
  conv_rhs => rw [← append_fields w, header, padding]
  rfl

/-- R72: a well-formed frame between the frame of six bytes 00 and the frame of six bytes FF. -/
theorem toNat_bounds_of_frameWellFormed {w : FrameWord} (h : frameWellFormed w = true) :
    0xA000000000000000 ≤ w.toNat ∧ w.toNat ≤ 0xA07FFFFFFFFFFF80 := by
  obtain ⟨header, padding⟩ := extract_of_frameWellFormed h
  have hi : w.toNat / 2 ^ 55 % 2 ^ 9 = 0b101000000 := by
    simpa [Nat.shiftRight_eq_div_pow] using congrArg BitVec.toNat header
  have lo : w.toNat % 2 ^ 7 = 0 := by simpa using congrArg BitVec.toNat padding
  have := w.isLt
  omega

theorem getLsbD_top_of_frameWellFormed {w : FrameWord} (h : frameWellFormed w = true) : w.getLsbD 63 = true := by
  simpa using congrArg (·.getLsbD 8) (extract_of_frameWellFormed h).1

/-! ### Decoding and encoding -/

theorem decodeFrame_of_frameWellFormed {w : FrameWord} (h : frameWellFormed w = true) :
    decodeFrame w = .ok (Instr.ofGlyphs (glyphsOfFrame w)) :=
  if_pos h

/-- The bytes of a word are read as that word. -/
theorem decodeTransfer_frameBytes (w : FrameWord) : decodeTransfer (frameBytes w) = decodeFrame w :=
  congrArg decodeFrame (wordOfBytes_frameBytes w)

/-- A word that decodes is the frame of the WRITE it decodes to (30_encoding.md R73). -/
theorem encode_of_decodeFrame {w : FrameWord} {i : Instr} (h : decodeFrame w = .ok i) :
    encode i = .transfer (frameBytes w) := by
  unfold decodeFrame at h
  split at h <;> cases h
  exact congrArg (Code.transfer ∘ frameBytes) (frameOfGlyphs_glyphsOfFrame ‹_›)

/-- A transfer that decodes is the transfer of the operation it decodes to (30_encoding.md R73, R84). -/
theorem encode_of_decodeTransfer {bytes : List Byte} {i : Instr} (h : decodeTransfer bytes = .ok i) :
    encode i = .transfer bytes := by
  unfold decodeTransfer at h
  split at h
  · split at h <;> cases h
    exact congrArg Code.transfer (Eq.symm ‹_›)
  · split at h <;> cases h
    exact congrArg Code.transfer (Eq.symm ‹_›)
  · rw [encode_of_decodeFrame h, frameBytes_wordOfBytes]
  · cases h

theorem decode_encode (i : Instr) : decode (encode i) = .ok i := by
  cases i with
  | write g0 g1 g2 g3 g4 g5 =>
    have wellFormed := frameWellFormed_frameOfGlyphs ⟨g0, g1, g2, g3, g4, g5⟩
    simp only [decode, encode, decodeTransfer_frameBytes, decodeFrame_of_frameWellFormed wellFormed,
      glyphsOfFrame_frameOfGlyphs, Instr.ofGlyphs]
  | load | check | ovlDp | ovlBat | packOpc | packAdr | packDat | packPad | emit | init1 | init2 => rfl

/-- A row of the opcode table that spells an operation's code is read as that operation. -/
theorem decodeTableWord_of_encode {nbits w : Nat} {i : Instr} (h : codeOfTableWord nbits w = encode i) :
    decodeTableWord nbits w = some i := by
  simp [decodeTableWord, h, decode_encode]

/-! ### Unused codes -/

theorem ecodeLegal_eq (c : BitVec 2) : ecodeLegal c = decide (c ≠ 3) := by
  revert c
  decide

/-- The codes that have a meaning, register by register (30_encoding.md R82). -/
theorem Block.codesLegal_iff (b : Block) :
    b.CodesLegal ↔ b.phase.toNat < 9 ∧ b.idx.toNat < 6 ∧ b.ecode ≠ 3 := by
  unfold Block.CodesLegal Block.unusedCode
  split_ifs <;> simp_all [phaseLegal, idxLegal, ecodeLegal_eq, Nat.lt_succ_iff]

/-- With `rst` released, an unused code is refused before any agent moves (30_encoding.md R82). -/
theorem step_eq_refused {s : State} {r : Refusal} (hr : s.ports.rst = false) (hu : s.block.unusedCode = some r) :
    step s = .refused r := by
  simp [step, State.turn, hr, hu]

/-- The invariant leaves no room for an unused code. -/
theorem Block.Inv.codesLegal {b : Block} (h : b.Inv) : b.CodesLegal := by
  refine b.codesLegal_iff.mpr ⟨Nat.lt_succ_of_le h.phase_legal, Nat.lt_succ_of_le h.idx_le, ?_⟩
  rw [h.ecode_of_err]
  split <;> decide

/-! ### The obligations of 30_encoding.md -/

/-- Settles O2, instruction by instruction: a frame gives its glyph bytes back, and every other code is a constant. -/
theorem decodeOfEncodeIsTheInstruction : Obligations.DecodeOfEncodeIsTheInstruction :=
  decode_encode

/-- Settles O3: the sequencer and the transport each decode only the codes that `encode` gives. -/
theorem encodeOfDecodeIsTheCode : Obligations.EncodeOfDecodeIsTheCode
  | .phase _, _, h => encode_of_decodePhase h
  | .transfer _, _, h => encode_of_decodeTransfer h

/-- Settles O4: a well-formed word is the frame of its data field, and the data field of a frame is the buffer. -/
theorem framesDecodeAndEncodeBack : Obligations.FramesDecodeAndEncodeBack := by
  refine ⟨fun w => ⟨beq_iff_eq, fun h => ⟨decodeFrame_of_frameWellFormed h, ?_, get_glyphsOfFrame w⟩⟩,
    fun g => ⟨frameWellFormed_buildFrame g, ?_⟩⟩
  · rw [buildFrame_eq_frameOfGlyphs, frameOfGlyphs_glyphsOfFrame h]
  · rw [buildFrame_eq_frameOfGlyphs, glyphsOfFrame_frameOfGlyphs]

/-- Settles O5: the constant fields of a well-formed frame, and an indicator bit as the top bit of its byte. -/
theorem frameFieldPositions : Obligations.FrameFieldPositions := by
  intro g
  obtain ⟨header, padding⟩ := extract_of_frameWellFormed (frameWellFormed_buildFrame g)
  have byte (i : Fin 6) : (buildFrame g).extractLsb' (47 - 8 * i.val) 8 = g.get i := by
    rw [buildFrame_eq_frameOfGlyphs, extract_frameOfGlyphs]
  refine ⟨?_, ?_, padding, fun i => ⟨byte i, ?_⟩⟩
  · exact (extract_extract _ (by decide)).symm.trans (congrArg (·.extractLsb' 6 3) header)
  · exact (extract_extract _ (by decide)).symm.trans (congrArg (·.extractLsb' 0 6) header)
  · rw [← byte i, BitVec.getLsbD_extractLsb', show 47 - 8 * i.val + 7 = 54 - 8 * i.val by omega]
    rfl

/-- Settles O6: the two closed forms, and the rest from the frame being well formed. -/
theorem frameClosedForm : Obligations.FrameClosedForm := by
  intro g
  have wellFormed := frameWellFormed_buildFrame g
  obtain ⟨least, greatest⟩ := toNat_bounds_of_frameWellFormed wellFormed
  have concat := (buildFrame_eq_frameOfGlyphs g).trans (frameOfGlyphs_eq_dataField g)
  exact ⟨concat, concat.trans (append_constants_eq_or _), beq_iff_eq.mp wellFormed, least, greatest,
    getLsbD_top_of_frameWellFormed wellFormed⟩

/-- Settles O9: an unused code makes the turn a refusal, and the invariant excludes it. -/
theorem unusedCodesAreRefused : Obligations.UnusedCodesAreRefused := by
  refine ⟨fun s hr unused => ?_, fun s hs => s.block.codesLegal_iff.mp hs.inv.codesLegal⟩
  have illegal : ¬ s.block.CodesLegal := by
    rw [Block.codesLegal_iff]
    rintro ⟨hp, hi, he⟩
    exact unused.elim (Nat.not_le.mpr hp) (·.elim (Nat.not_le.mpr hi) he)
  obtain ⟨r, hu⟩ := Option.ne_none_iff_exists'.mp illegal
  exact ⟨r, step_eq_refused hr hu⟩

/-- Settles O1: each word spells the code of its operation. -/
theorem sampleWordsDecode : Obligations.SampleWordsDecode := by
  refine ⟨?_, ?_, ?_, ?_, ?_, ?_, ?_, ?_, ?_, ?_, ?_, ?_⟩ <;> exact decodeTableWord_of_encode rfl

/-- Settles O11: the four legal integers, each the value of one pattern in two's complement. -/
theorem legalSelectorPatterns : Obligations.LegalSelectorPatterns := by
  intro v
  simp [legalSelector, ← BitVec.toInt_inj, or_assoc]

end Sys2Proof.Machine

/-! # The digit encoder family: folding, placement and truncation

What the dot muncher makes of a text (40_digit_encoder_upstream.md R103, R104), where the glyphs stand (R105) and which of
them are kept (R106). -/

namespace Sys2Proof.Machine

section
variable (glyph : Char → Byte) (mask : Byte) (mode : Config.TruncMode)

/-! ### Folding -/

/-- R103: a dot after another character is part of that character's glyph. -/
theorem foldDots_cons_dot {c : Char} (hc : c ≠ '.') (rest : List Char) :
    foldDots glyph mask (c :: '.' :: rest) = (glyph c ||| mask) :: foldDots glyph mask rest :=
  if_pos ⟨hc, rfl⟩

/-- R104: a character that no dot follows gives its own glyph. -/
theorem foldDots_cons_of_head?_ne {rest : List Char} (h : rest.head? ≠ some '.') (c : Char) :
    foldDots glyph mask (c :: rest) = glyph c :: foldDots glyph mask rest := by
  cases rest with
  | nil => rfl
  | cons d rest => exact if_neg fun folds => h (congrArg some folds.2)

/-- R104: a dot with nothing before it to fold into gives its own glyph. -/
theorem foldDots_dot_cons (rest : List Char) :
    foldDots glyph mask ('.' :: rest) = glyph '.' :: foldDots glyph mask rest := by
  cases rest with
  | nil => rfl
  | cons d rest => exact if_neg fun folds => folds.1 rfl

theorem foldDots_eq_map {text : List Char} (h : '.' ∉ text) : foldDots glyph mask text = text.map glyph := by
  induction text with
  | nil => rfl
  | cons c rest ih =>
    have noDot : '.' ∉ rest := fun dot => h (.tail c dot)
    have head : rest.head? ≠ some '.' := fun dot => noDot (List.mem_of_head? dot)
    rw [foldDots_cons_of_head?_ne glyph mask head, ih noDot, List.map_cons]

/-! ### Placement -/

@[simp] theorem get_placeRight (q : List Byte) (i : Fin 6) : (placeRight q).get i = alignedByte q i.val := by
  match i with
  | 0 | 1 | 2 | 3 | 4 | 5 => rfl

/-- R105: the positions before the glyphs are blank. -/
theorem alignedByte_of_lt {q : List Byte} {i : Nat} (h : i + q.length < 6) : alignedByte q i = 0 :=
  if_pos h

/-- R105: glyph `j` of at most six stands at position `6 - n + j`. -/
theorem alignedByte_add {q : List Byte} {j : Nat} (hq : q.length ≤ 6) (hj : j < q.length) :
    alignedByte q (6 - q.length + j) = q[j] := by
  have inside : ¬ 6 - q.length + j + q.length < 6 := by omega
  have index : 6 - q.length + j + q.length - 6 = j := by omega
  simp [alignedByte, inside, index, hj]

/-! ### The encoder, by the number of glyphs -/

theorem encodeWith_of_length_le {text : List Char} (h : (foldDots glyph mask text).length ≤ 6) :
    encodeWith glyph mask mode text = placeRight (foldDots glyph mask text) :=
  if_neg (Nat.not_lt.mpr h)

theorem encodeWith_input6_of_lt {text : List Char} (h : 6 < (foldDots glyph mask text).length) :
    encodeWith glyph mask .input6 text = placeRight (foldDots glyph mask (text.take 6)) :=
  if_pos h

theorem encodeWith_glyph6_of_lt {text : List Char} (h : 6 < (foldDots glyph mask text).length) :
    encodeWith glyph mask .glyph6 text = placeRight ((foldDots glyph mask text).take 6) :=
  if_pos h

/-- R106: without a dot each character is one glyph, so either reading keeps the glyphs of the first six characters. -/
theorem encodeWith_of_noDot {text : List Char} (h : '.' ∉ text) :
    encodeWith glyph mask mode text = placeRight ((text.take 6).map glyph) := by
  have fold := foldDots_eq_map glyph mask h
  rcases Nat.lt_or_ge 6 (foldDots glyph mask text).length with long | short
  · cases mode with
    | input6 =>
      have noDot : '.' ∉ text.take 6 := fun dot => h (List.mem_of_mem_take dot)
      rw [encodeWith_input6_of_lt glyph mask long, foldDots_eq_map glyph mask noDot]
    | glyph6 => rw [encodeWith_glyph6_of_lt glyph mask long, fold, List.map_take]
  · have whole : text.length ≤ 6 := by simpa [fold] using short
    rw [encodeWith_of_length_le glyph mask mode short, fold, List.take_of_length_le whole]

end

/-! ### The obligations of 40_digit_encoder_upstream.md -/

/-- Settles O55: at most six glyphs are placed uncut, and each position is a glyph or stands before them all. -/
theorem encodeAlignsRight : Obligations.EncodeAlignsRight := by
  intro glyph mask mode text short
  rw [encodeWith_of_length_le glyph mask mode short]
  refine ⟨fun j i hj hi => ?_, fun i hi => ?_, rfl⟩
  · rw [get_placeRight, hi, alignedByte_add short hj, List.getElem?_eq_getElem hj]
  · rw [get_placeRight, alignedByte_of_lt (Nat.add_lt_of_lt_sub hi)]

/-- Settles O56: a dot folds into the character before it, unless that is a dot too or there is none. -/
theorem foldingLaw : Obligations.FoldingLaw := by
  intro glyph mask mode c d hc hd
  have folded := foldDots_cons_dot glyph mask hc
  have unfolded (rest : List Char) : (d :: rest).head? ≠ some '.' := fun dot => hd (Option.some.inj dot)
  refine ⟨folded, fun rest => foldDots_cons_of_head?_ne glyph mask (unfolded rest) c, foldDots_dot_cons glyph mask, ?_, rfl⟩
  have pair : foldDots glyph mask [c, '.', d] = [glyph c ||| mask, glyph d] := folded [d]
  rw [encodeWith_of_length_le glyph mask mode (by simp [pair]), pair]
  rfl

/-- Settles O57: the two readings of an over-long text, and their agreement without a dot or without a cut. -/
theorem truncationIsNotAnError : Obligations.TruncationIsNotAnError := by
  intro glyph mask text
  refine ⟨fun long => ⟨encodeWith_input6_of_lt glyph mask long, encodeWith_glyph6_of_lt glyph mask long⟩,
    fun noDot mode => encodeWith_of_noDot glyph mask mode noDot, fun short => ?_⟩
  rw [encodeWith_of_length_le glyph mask .input6 short, encodeWith_of_length_le glyph mask .glyph6 short]

end Sys2Proof.Machine

/-! # The overlay family: indicator bits as masks

Every lighting of an indicator bit is an OR with a mask (41_overlay.md R125), so the laws of the overlay (R126) are laws of
OR, and the sequence LOAD, CHECK, OVL.DP, OVL.BAT computes `applyIndicators` (R124). -/

namespace Sys2Proof.GlyphBuffer

/-! ### Bytewise OR -/

@[simp] theorem get_blank (i : Fin 6) : blank.get i = 0 := by
  revert i
  decide

@[simp] theorem or_blank (a : GlyphBuffer) : a.or blank = a := eq_of_get fun i => by simp

theorem or_assoc (a b c : GlyphBuffer) : (a.or b).or c = a.or (b.or c) := eq_of_get fun i => by simp [BitVec.or_assoc]

theorem or_right_comm (a b c : GlyphBuffer) : (a.or b).or c = (a.or c).or b :=
  eq_of_get fun i => by simp [BitVec.or_assoc, BitVec.or_comm (b.get i)]

@[simp] theorem or_or_self (a m : GlyphBuffer) : (a.or m).or m = a.or m := eq_of_get fun i => by simp [BitVec.or_assoc]

/-- Setting an indicator bit is an OR with the mask that holds this bit alone. -/
theorem light_eq_or (b : GlyphBuffer) (i : Fin 6) : b.light i = b.or (blank.light i) := by
  refine eq_of_get fun j => ?_
  by_cases h : j = i
  · simp [h]
  · simp [get_light_other _ _ _ h]

end Sys2Proof.GlyphBuffer

namespace Sys2Proof.Machine

/-! ### The mask vector (R125) -/

/-- The decimal-point part marks the byte that the selector names, among the first three. -/
theorem get_dpMask (dp : Int) (i : Fin 6) :
    (dpMask dp).get i = if (i.val : Int) = dp ∧ dp ≤ 2 then 0x80 else 0 := by
  by_cases marked : dp = 0 ∨ dp = 1 ∨ dp = 2
  · rcases marked with rfl | rfl | rfl <;> revert i <;> decide
  · rw [dpMask, if_neg, if_neg, if_neg, if_neg, GlyphBuffer.get_blank] <;> omega

/-- The battery part marks the bytes from index 3 up to the level. -/
theorem get_batteryMask (bl : Int) (i : Fin 6) :
    (batteryMask bl).get i = if 3 ≤ i.val ∧ (i.val : Int) ≤ bl + 3 ∧ bl ≤ 2 then 0x80 else 0 := by
  by_cases marked : bl = 0 ∨ bl = 1 ∨ bl = 2
  · rcases marked with rfl | rfl | rfl <;> revert i <;> decide
  · rw [batteryMask, if_neg, if_neg, if_neg, if_neg, GlyphBuffer.get_blank] <;> omega

/-- A byte of the mask vector is 00 or 80. -/
theorem get_indicatorMask (dp bl : Int) (i : Fin 6) :
    (indicatorMask dp bl).get i = 0x00 ∨ (indicatorMask dp bl).get i = 0x80 := by
  rw [indicatorMask, GlyphBuffer.get_or, get_dpMask, get_batteryMask]
  split <;> split <;> decide

/-- A byte ORed with an indicator mask: the low seven bits stay, bit 7 is ORed, and no set bit is lost. -/
theorem or_indicator (b : Byte) {m : Byte} (h : m = 0x00 ∨ m = 0x80) :
    (b ||| m).extractLsb' 0 7 = b.extractLsb' 0 7 ∧ (b ||| m).getLsbD 7 = (b.getLsbD 7 || m.getLsbD 7) ∧
    (b ||| m) &&& b = b := by
  have low : m.extractLsb' 0 7 = 0 := by rcases h with rfl | rfl <;> rfl
  refine ⟨?_, BitVec.getLsbD_or, ?_⟩
  · rw [BitVec.extractLsb'_or, low, BitVec.ofNat_eq_ofNat, BitVec.or_zero]
  · apply BitVec.eq_of_getLsbD_eq
    intro i _
    rw [BitVec.getLsbD_and, BitVec.getLsbD_or, Bool.and_comm]
    exact inf_sup_self

/-! ### `applyIndicators` (R124) -/

theorem legalSelector_iff (n : Int) : legalSelector n = true ↔ n = -1 ∨ n = 0 ∨ n = 1 ∨ n = 2 := by
  simp [legalSelector, or_assoc]

/-- An overlay that succeeds had legal selectors and is an OR with the mask vector. -/
theorem applyIndicators_eq_some_iff {b r : GlyphBuffer} {dp bl : Int} : applyIndicators b dp bl = some r ↔
    (legalSelector dp = true ∧ legalSelector bl = true) ∧ b.or (indicatorMask dp bl) = r := by
  simp [applyIndicators]

theorem applyIndicators_eq_none_iff {b : GlyphBuffer} {dp bl : Int} :
    applyIndicators b dp bl = none ↔ ¬(legalSelector dp = true ∧ legalSelector bl = true) := by
  simp [applyIndicators]

/-! ### LOAD and CHECK, one equation per answer -/

theorem exec_load_accept {s : State} (h : s.ports.reqValid = true) :
    exec .load s = .next (s.withBlock (s.block.accept s.ports)) := by
  simp [exec, execLoad, h]

theorem exec_load_hold {s : State} (h : s.ports.reqValid = false) : exec .load s = .next s := by
  simp [exec, execLoad, h]

theorem exec_check_legal {s : State}
    (h : legalSelector s.block.dp.toInt = true ∧ legalSelector s.block.bl.toInt = true) :
    exec .check s = .next (s.withBlock (s.block.toPhase phaseOvlDp)) := by
  simp [exec, execCheck, h]

theorem exec_check_illegal {s : State}
    (h : ¬(legalSelector s.block.dp.toInt = true ∧ legalSelector s.block.bl.toInt = true)) :
    exec .check s = .next (s.withBlock (s.block.raise .invalidArgument)) := by
  simp [exec, execCheck, h]

/-! ### OVL.DP and OVL.BAT as ORs with a mask -/

/-- `GB <- GB | m`, bytewise: what OVL.DP and OVL.BAT do with the masks they light. -/
def Block.overlay (b : Block) (m : GlyphBuffer) : Block := { b with gb := b.gb.or m }

@[simp] theorem Block.overlay_gb (b : Block) (m : GlyphBuffer) : (b.overlay m).gb = b.gb.or m := rfl

@[simp] theorem Block.overlay_blank (b : Block) : b.overlay .blank = b := by
  simp [overlay]

theorem Block.overlay_overlay (b : Block) (m n : GlyphBuffer) : (b.overlay m).overlay n = b.overlay (m.or n) := by
  simp [overlay, GlyphBuffer.or_assoc]

theorem Block.light_eq_overlay (b : Block) (i : Fin 6) : b.light i = b.overlay (GlyphBuffer.blank.light i) :=
  congrArg (fun g => { b with gb := g }) (b.gb.light_eq_or i)

theorem dpMask_of_dpIndex {dp : Sel} {i : Fin 6} (h : dpIndex dp = some i) :
    dpMask dp.toInt = GlyphBuffer.blank.light i := by
  unfold dpIndex at h
  split_ifs at h with h0 h1 h2 <;> cases h
  · rw [h0]; rfl
  · rw [h1]; rfl
  · rw [h2]; rfl

/-- OVL.DP of a checked selector is an OR with the decimal-point part of the mask vector. -/
theorem exec_ovlDp_legal {s : State} (h : legalSelector s.block.dp.toInt = true) :
    exec .ovlDp s = .next (s.withBlock ((s.block.overlay (dpMask s.block.dp.toInt)).toPhase phaseOvlBat)) := by
  by_cases unlit : s.block.dp.toInt = -1
  · have mask : dpMask s.block.dp.toInt = .blank := by rw [unlit]; rfl
    rw [exec_ovlDp_none unlit, mask, Block.overlay_blank]
  · obtain ⟨i, hi⟩ := Option.isSome_iff_exists.mp (((legalSelector_iff_dpIndex _).mp h).resolve_left unlit)
    rw [exec_ovlDp_some unlit hi, dpMask_of_dpIndex hi, Block.light_eq_overlay]

/-- Wherever OVL.DP answers a next state its selector is a checked one, so `GB` is ORed with that selector's mask. -/
theorem gb_of_exec_ovlDp {s t : State} (h : exec .ovlDp s = .next t) :
    t.block.gb = s.block.gb.or (dpMask s.block.dp.toInt) := by
  cases legal : legalSelector s.block.dp.toInt with
  | true =>
    cases (exec_ovlDp_legal legal).symm.trans h
    rfl
  | false => cases ((exec_ovlDp_fault_iff s).mpr legal).symm.trans h

theorem or_ite_zero (b m : Byte) (p : Prop) [Decidable p] :
    (b ||| if p then m else 0) = if p then b ||| m else b := by
  split <;> simp

/-- What OVL.BAT lights at any level, legal or not: it has no check of its own (assumption log 7). -/
def levelMask (level : Int) : GlyphBuffer :=
  ⟨0, 0, 0, if level ≠ -1 then 0x80 else 0, if level ≥ 1 then 0x80 else 0, if level = 2 then 0x80 else 0⟩

/-- On the legal levels, what OVL.BAT lights is the battery part of the mask vector. -/
theorem levelMask_of_legal {bl : Int} (h : legalSelector bl = true) : levelMask bl = batteryMask bl := by
  obtain rfl | rfl | rfl | rfl := (legalSelector_iff bl).mp h <;> rfl

/-- OVL.BAT is an OR with the marks of its level. -/
theorem Block.lightBattery_eq_overlay (b : Block) (level : Int) :
    b.lightBattery level = b.overlay (levelMask level) := by
  unfold lightBattery levelMask
  by_cases unlit : level = -1
  · subst unlit
    exact b.overlay_blank.symm
  · simp only [if_neg unlit, if_pos (show level ≠ -1 from unlit), light_eq_overlay]
    split_ifs
    · rw [overlay_overlay, overlay_overlay]; rfl
    · omega
    · rw [overlay_overlay]; rfl
    · rfl

theorem exec_ovlBat (s : State) : exec .ovlBat s =
    .next (s.withBlock ((s.block.overlay (levelMask s.block.bl.toInt)).toPhase phasePackOpc)) := by
  rw [← Block.lightBattery_eq_overlay]
  rfl

theorem gb_of_exec_ovlBat {s t : State} (h : exec .ovlBat s = .next t) :
    t.block.gb = s.block.gb.or (levelMask s.block.bl.toInt) := by
  cases (exec_ovlBat s).symm.trans h
  rfl

/-! ### A request up to PACK_OPC -/

theorem runN_succ {s t : State} (h : step s = .next t) (n : Nat) : runN (n + 1) s = runN n t := by
  simp [runN, h]

/-- With everything outside at rest, a busy block goes on by the micro-operation that `PHASE` names. -/
theorem runN_withBlock {s : State} {b c : Block} {i : Instr} (quiet : s.Quiet) (codes : b.CodesLegal)
    (busy : b.phase ≠ phaseIdle) (hd : decodePhase b.phase = .ok i)
    (hx : exec i (s.withBlock b) = .next (s.withBlock c)) (n : Nat) :
    runN (n + 1) (s.withBlock b) = runN n (s.withBlock c) := by
  obtain ⟨hr, ho, hc⟩ := quiet
  have idleHost : (s.withBlock b).hostMove = none := State.hostMove_none hc (.inl busy)
  exact runN_succ ((step_eq_exec (s := s.withBlock b) hr codes ho idleHost hd).trans hx) n

section
variable {s : State} (quiet : s.Quiet) (codes : s.block.CodesLegal) (idle : s.block.phase = phaseIdle)
  (valid : s.ports.reqValid = true)
include quiet codes idle valid

/-- A quiet idle block accepts the request on its port (R120). -/
theorem runN_accept (n : Nat) : runN (n + 1) s = runN n (s.withBlock (s.block.accept s.ports)) := by
  obtain ⟨hr, ho, hc⟩ := quiet
  have idleHost : s.hostMove = none := State.hostMove_none hc (.inr (.inl valid))
  have load : decodePhase s.block.phase = .ok .load := by rw [idle]; rfl
  exact runN_succ ((step_eq_exec hr codes ho idleHost load).trans (exec_load_accept valid)) n

/-- Four steps from a legal request, the buffer presented has been overlaid with the mask vector (R124). -/
theorem runN_overlay_legal
    (legal : legalSelector s.ports.dpIn.toInt = true ∧ legalSelector s.ports.blIn.toInt = true) :
    runN 4 s = .next (s.withBlock (((s.block.accept s.ports).overlay
      (indicatorMask s.ports.dpIn.toInt s.ports.blIn.toInt)).toPhase phasePackOpc)) := by
  rw [indicatorMask, ← levelMask_of_legal legal.2, ← Block.overlay_overlay]
  have check := exec_check_legal (s := s.withBlock (s.block.accept s.ports)) legal
  have ovlDp := exec_ovlDp_legal (s := s.withBlock ((s.block.accept s.ports).toPhase phaseOvlDp)) legal.1
  have ovlBat := exec_ovlBat
    (s.withBlock (((s.block.accept s.ports).overlay (dpMask s.ports.dpIn.toInt)).toPhase phaseOvlBat))
  calc runN 4 s
    _ = runN 3 (s.withBlock (s.block.accept s.ports)) := runN_accept quiet codes idle valid 3
    _ = runN 2 (s.withBlock ((s.block.accept s.ports).toPhase phaseOvlDp)) :=
      runN_withBlock quiet rfl (by simp) rfl check 2
    _ = runN 1 (s.withBlock (((s.block.accept s.ports).overlay (dpMask s.ports.dpIn.toInt)).toPhase phaseOvlBat)) :=
      runN_withBlock quiet rfl (by simp) rfl ovlDp 1
    _ = _ := runN_withBlock quiet rfl (by simp) rfl ovlBat 0

/-- Two steps from an illegal request, CHECK has raised and the buffer is as it was presented (R121). -/
theorem runN_overlay_illegal
    (illegal : ¬(legalSelector s.ports.dpIn.toInt = true ∧ legalSelector s.ports.blIn.toInt = true)) :
    runN 2 s = .next (s.withBlock ((s.block.accept s.ports).raise .invalidArgument)) := by
  have check := exec_check_illegal (s := s.withBlock (s.block.accept s.ports)) illegal
  exact (runN_accept quiet codes idle valid 1).trans (runN_withBlock quiet rfl (by simp) rfl check 0)

end

/-! ### The obligations of 41_overlay.md -/

/-! #### Tier 2 -/

/-- Settles O25: `applyIndicators` by its two cases, and the run of the block in each. -/
theorem blockAppliesTheIndicators : Obligations.BlockAppliesTheIndicators := by
  refine ⟨fun b dp bl => ⟨?_, fun r h i => ?_⟩, fun s quiet codes idle valid => ?_⟩
  · rw [applyIndicators_eq_none_iff, legalSelector_iff, legalSelector_iff]
  · rw [← (applyIndicators_eq_some_iff.mp h).2, GlyphBuffer.get_or]
  · by_cases legal : legalSelector s.ports.dpIn.toInt = true ∧ legalSelector s.ports.blIn.toInt = true
    · rw [applyIndicators_eq_some_iff.mpr ⟨legal, rfl⟩]
      exact ⟨_, runN_overlay_legal quiet codes idle valid legal, rfl, rfl⟩
    · rw [applyIndicators_eq_none_iff.mpr legal]
      exact ⟨_, runN_overlay_illegal quiet codes idle valid legal, rfl, rfl, rfl, rfl⟩

/-- Settles O26: the overlay is an OR with a mask, byte by byte and as a buffer. -/
theorem overlayLaws : Obligations.OverlayLaws := by
  refine ⟨fun b r dp bl h => ?_, fun b => ?_, fun s t1 t2 u1 u2 h1 h2 h3 h4 => ?_⟩
  · obtain ⟨legal, rfl⟩ := applyIndicators_eq_some_iff.mp h
    refine ⟨fun i => ?_, ?_⟩
    · rw [GlyphBuffer.get_or]
      exact or_indicator _ (get_indicatorMask dp bl i)
    · exact applyIndicators_eq_some_iff.mpr ⟨legal, GlyphBuffer.or_or_self ..⟩
  · have mask : indicatorMask (-1) (-1) = .blank := rfl
    exact applyIndicators_eq_some_iff.mpr ⟨by decide, by rw [mask, GlyphBuffer.or_blank]⟩
  · have bl : t1.block.bl = s.block.bl := ((exec_effect h1).operands_kept (by simp)).2
    have dp : u1.block.dp = s.block.dp := ((exec_effect h3).operands_kept (by simp)).1
    rw [gb_of_exec_ovlBat h2, gb_of_exec_ovlDp h1, gb_of_exec_ovlDp h4, gb_of_exec_ovlBat h3, bl, dp,
      GlyphBuffer.or_right_comm]

/-! #### Tier 1 -/

/-- Settles O18: LOAD's two answers. -/
theorem loadAcceptsTheRequest : Obligations.LoadAcceptsTheRequest := by
  refine ⟨rfl, fun s valid => ⟨_, exec_load_accept valid, ?_⟩, fun _ => exec_load_hold⟩
  exact ⟨rfl, rfl, rfl, rfl, rfl, rfl, rfl, rfl, rfl, rfl, rfl, rfl, rfl, rfl⟩

/-- Settles O19: CHECK's two answers. -/
theorem checkValidatesBothSelectors : Obligations.CheckValidatesBothSelectors := by
  refine ⟨rfl, fun s => ?_⟩
  simp only [← legalSelector_iff]
  by_cases legal : legalSelector s.block.dp.toInt = true ∧ legalSelector s.block.bl.toInt = true
  · exact ⟨_, exec_check_legal legal, rfl, rfl, rfl, ⟨rfl, rfl, rfl⟩, ⟨rfl, rfl⟩, ⟨rfl, rfl, rfl⟩,
      fun _ => ⟨rfl, rfl, rfl⟩, absurd legal⟩
  · exact ⟨_, exec_check_illegal legal, rfl, rfl, rfl, ⟨rfl, rfl, rfl⟩, ⟨rfl, rfl⟩, ⟨rfl, rfl, rfl⟩,
      (absurd · legal), fun _ => ⟨rfl, rfl, rfl⟩⟩

/-- Settles O21: of the mask that OVL.DP ORs in, only the byte that `DP` names is marked. -/
theorem ovlDpLightsOneByte : Obligations.OvlDpLightsOneByte := by
  refine ⟨rfl, fun s hdp => ?_⟩
  refine ⟨_, exec_ovlDp_legal ((legalSelector_iff _).mpr hdp), rfl, fun i => ?_, rfl, ⟨rfl, rfl, rfl⟩, ⟨rfl, rfl⟩,
    ⟨rfl, rfl, rfl⟩, ⟨rfl, rfl, rfl⟩⟩
  have le : s.block.dp.toInt ≤ 2 := by omega
  simp only [State.withBlock_block, Block.toPhase_gb, Block.overlay_gb, GlyphBuffer.get_or, get_dpMask]
  exact ⟨fun h => by rw [if_pos ⟨h, le⟩], fun h => by simp [h]⟩

/-- Settles O23: the bytes of the mask that OVL.BAT ORs in. -/
theorem ovlBatLightsTheStagedBytes : Obligations.OvlBatLightsTheStagedBytes := by
  refine ⟨rfl, fun s hbl => ⟨_, exec_ovlBat s, rfl, BitVec.or_zero, BitVec.or_zero, BitVec.or_zero, ?_, or_ite_zero ..,
    or_ite_zero .., rfl, ⟨rfl, rfl, rfl⟩, ⟨rfl, rfl⟩, ⟨rfl, rfl, rfl⟩, ⟨rfl, rfl, rfl⟩⟩⟩
  have lit : s.block.bl.toInt ≠ -1 ↔ s.block.bl.toInt ≥ 0 := by omega
  exact (or_ite_zero ..).trans (if_congr lit rfl rfl)

/-- Settles O24: the tables by evaluation, the mask as their OR, byte by byte. -/
theorem indicatorMaskTable : Obligations.IndicatorMaskTable :=
  ⟨⟨rfl, rfl, rfl, rfl⟩, ⟨rfl, rfl, rfl, rfl⟩, fun dp bl i => ⟨GlyphBuffer.get_or .., get_indicatorMask dp bl i⟩⟩

end Sys2Proof.Machine

/-! # The frame builder family: `Append`, the accumulator on entry to each step, and the run from PACK.OPC to EMIT

`Append` over the integers and over an arbitrary old accumulator (42_frame_builder.md R140, R156, R158), what the
invariant says of `NB` and `ACC` phase by phase (R147, R155), and the ten steps that build a frame (R146). -/

namespace Sys2Proof.Machine

/-! ### `Append` over unbounded integers (R140) -/

theorem appendBitsNat_eq {w : Nat} (acc : Nat) (v : BitVec w) (j : Nat) :
    appendBitsNat acc v j = acc * 2 ^ j + v.toNat % 2 ^ j := by
  induction j generalizing acc with
  | zero => simp [appendBitsNat, Nat.mod_one]
  | succ j ih =>
    rw [appendBitsNat, ih, BitVec.getLsbD, Nat.toNat_testBit, Nat.mod_pow_succ]
    ring

theorem appendNat_eq {w : Nat} (acc : Nat) (v : BitVec w) : appendNat acc v = acc * 2 ^ w + v.toNat := by
  rw [appendNat, appendBitsNat_eq, Nat.mod_eq_of_lt v.isLt]

/-! ### What the old accumulator leaves in the new one (R156) -/

/-- Two accumulators that agree on their low `n` bits agree on `w` bits more after a field of `w` bits. -/
theorem append_low_congr {w n : Nat} {a b : BitVec 64} (v : BitVec w) (h : ∀ i < n, a.getLsbD i = b.getLsbD i) :
    ∀ i < n + w, (append a v).getLsbD i = (append b v).getLsbD i := by
  intro i hi
  rw [getLsbD_append, getLsbD_append]
  by_cases hw : i < w
  · simp [hw]
  · rw [h (i - w) (by omega)]

theorem foldl_append_low_congr {n : Nat} (bytes : List Byte) {a b : BitVec 64}
    (h : ∀ i < n, a.getLsbD i = b.getLsbD i) : ∀ i < n + 8 * bytes.length,
      (bytes.foldl (fun c v => append c v) a).getLsbD i = (bytes.foldl (fun c v => append c v) b).getLsbD i := by
  induction bytes generalizing n a b with
  | nil => exact h
  | cons v vs ih =>
    intro i hi
    rw [List.length_cons] at hi
    exact ih (append_low_congr v h) i (by omega)

/-- The 64 bits of a frame leave nothing of what the accumulator held before them. -/
theorem packFrom_eq_buildFrame (acc : BitVec 64) (g : GlyphBuffer) : packFrom acc g = buildFrame g := by
  have header : ∀ i < 0 + 3 + 6, (packHeader acc).getLsbD i = (packHeader 0).getLsbD i :=
    append_low_congr _ (append_low_congr _ (by simp))
  have glyphs : ∀ i < 9 + 8 * 6,
      (packGlyphs (packHeader acc) g 6).getLsbD i = (packGlyphs (packHeader 0) g 6).getLsbD i :=
    foldl_append_low_congr g.toList header
  rw [buildFrame, packFrom, packFrom]
  exact BitVec.eq_of_getLsbD_eq (append_low_congr Config.pad glyphs)

/-! ### The accumulator and its count, phase by phase (R147, R155) -/

/-- The opcode and the address in an empty accumulator. -/
theorem packHeader_zero : packHeader 0 = (0b101000000#9).setWidth 64 := by decide

/-- R147: each pass of PACK.DAT puts one more glyph byte below the header. -/
theorem packGlyphs_concat (g : GlyphBuffer) :
    packGlyphs (packHeader 0) g 1 = (0b101000000#9 ++ g.g0).setWidth 64 ∧
    packGlyphs (packHeader 0) g 2 = (0b101000000#9 ++ g.g0 ++ g.g1).setWidth 64 ∧
    packGlyphs (packHeader 0) g 3 = (0b101000000#9 ++ g.g0 ++ g.g1 ++ g.g2).setWidth 64 ∧
    packGlyphs (packHeader 0) g 4 = (0b101000000#9 ++ g.g0 ++ g.g1 ++ g.g2 ++ g.g3).setWidth 64 ∧
    packGlyphs (packHeader 0) g 5 = (0b101000000#9 ++ g.g0 ++ g.g1 ++ g.g2 ++ g.g3 ++ g.g4).setWidth 64 ∧
    packGlyphs (packHeader 0) g 6 = (0b101000000#9 ++ g.g0 ++ g.g1 ++ g.g2 ++ g.g3 ++ g.g4 ++ g.g5).setWidth 64 := by
  simp only [packGlyphs, GlyphBuffer.toList, List.take, List.foldl, packHeader_zero, append_setWidth, and_self]

/-- The counts that a request goes through. -/
theorem bitsAppended_cases (phase : BitVec 4) {idx : BitVec 3} (h : idx.toNat ≤ 5) :
    bitsAppended phase idx = 0 ∨ bitsAppended phase idx = 3 ∨ bitsAppended phase idx = 9 ∨
    bitsAppended phase idx = 17 ∨ bitsAppended phase idx = 25 ∨ bitsAppended phase idx = 33 ∨
    bitsAppended phase idx = 41 ∨ bitsAppended phase idx = 49 ∨ bitsAppended phase idx = 57 ∨
    bitsAppended phase idx = 64 := by
  unfold bitsAppended
  split <;> omega

namespace Block.Inv

variable {b : Block}

/-- On entry to a step of a request, `PHASE` and `IDX` give `NB` and `ACC`. -/
theorem entry (h : b.Inv) {p : BitVec 4} (hp : b.phase = p) (busy : p ≠ phaseIdle) :
    b.nb = BitVec.ofNat 7 (bitsAppended p b.idx) ∧ b.acc = bitsPacked b.gb p b.idx := by
  subst hp
  exact ⟨by rw [← h.nb_determined busy, BitVec.ofNat_toNat, BitVec.setWidth_eq], h.acc_exact busy⟩

/-- On entry to pass `k` of PACK.DAT, `k` bytes follow the header. -/
theorem entry_packDat (h : b.Inv) (hp : b.phase = phasePackDat) {k : BitVec 3} (hk : b.idx = k) :
    b.nb = BitVec.ofNat 7 (9 + 8 * k.toNat) ∧
    b.acc = packGlyphs (packHeader 0) b.gb k.toNat := by
  subst hk
  exact h.entry hp (by decide)

end Block.Inv

/-! ### The micro-operations, one equation per answer -/

theorem glyphIndex_of_toNat {idx : BitVec 3} {i : Fin 6} (h : idx.toNat = i.val) : glyphIndex idx = some i := by
  simp [glyphIndex, h]

/-- A pass of PACK.DAT before the sixth stays in the loop (R143). -/
theorem exec_packDat_byte {s : State} {i : Fin 6} (hi : s.block.idx.toNat = i.val) (h5 : s.block.idx ≠ 5) :
    exec .packDat s = .next (s.withBlock
      (((s.block.pack (s.block.gb.get i)).setIdx (s.block.idx + 1)).toPhase phasePackDat)) := by
  rw [exec_packDat_some (glyphIndex_of_toNat hi), if_neg h5]

/-- The sixth pass of PACK.DAT leaves the loop (R143). -/
theorem exec_packDat_lastByte {s : State} {i : Fin 6} (hi : s.block.idx.toNat = i.val) (h5 : s.block.idx = 5) :
    exec .packDat s = .next (s.withBlock
      (((s.block.pack (s.block.gb.get i)).setIdx 0).toPhase phasePackPad)) := by
  rw [exec_packDat_some (glyphIndex_of_toNat hi), if_pos h5]

/-- Only EMIT sets `DONE`. -/
theorem Effect.done_of_done {p : Ports} {b c : Block} {i : Instr} (h : Effect p b i c) (he : i ≠ .emit)
    (hc : c.done = true) : b.done = true := by
  by_cases hl : i = .load
  · subst hl
    obtain ⟨-, rfl⟩ | ⟨-, rfl⟩ := h
    · cases hc
    · exact hc
  · exact h.done_kept hl he ▸ hc

/-! ### The run from PACK.OPC to EMIT (R146) -/

/-- `b` with the header and the first `k` glyph bytes appended to whatever `ACC` held. -/
def Block.packed (b : Block) (k : Nat) : Block :=
  { b with acc := packGlyphs (packHeader b.acc) b.gb k, nb := b.nb + BitVec.ofNat 7 (9 + 8 * k) }

/-- `b` on entry to pass `k` of PACK.DAT. -/
def Block.atPass (b : Block) (k : Nat) : Block := ((b.packed k).setIdx (BitVec.ofNat 3 k)).toPhase phasePackDat

@[simp] theorem Block.atPass_phase (b : Block) (k : Nat) : (b.atPass k).phase = phasePackDat := rfl
@[simp] theorem Block.atPass_idx (b : Block) (k : Nat) : (b.atPass k).idx = BitVec.ofNat 3 k := rfl

theorem Block.pack_packed (b : Block) {k : Nat} (hk : k < 6) :
    (b.packed k).pack (b.gb.get ⟨k, hk⟩) = b.packed (k + 1) := by
  have count : b.nb + BitVec.ofNat 7 (9 + 8 * k) + BitVec.ofNat 7 8 = b.nb + BitVec.ofNat 7 (9 + 8 * (k + 1)) := by
    rw [BitVec.add_assoc, ← BitVec.ofNat_add, Nat.mul_succ, Nat.add_assoc]
  simp only [Block.pack, Block.packed, count, packGlyphs_succ _ b.gb ⟨k, hk⟩]

theorem Block.pack_header (b : Block) : (b.pack Config.opc).pack Config.addr = b.packed 0 := by
  simp [Block.pack, Block.packed, packHeader, packGlyphs, BitVec.add_assoc]

/-- PACK.ADR after PACK.OPC leads to the first pass. -/
theorem exec_packAdr_header (s : State) (b : Block) :
    exec .packAdr (s.withBlock ((b.pack Config.opc).toPhase phasePackAdr)) = .next (s.withBlock (b.atPass 0)) := by
  rw [Block.atPass, ← Block.pack_header]
  rfl

/-- A pass of the loop leads to the next one. -/
theorem exec_packDat_atPass (s : State) (b : Block) {k : Nat} (hk : k < 5) :
    exec .packDat (s.withBlock (b.atPass k)) = .next (s.withBlock (b.atPass (k + 1))) := by
  have idx : (BitVec.ofNat 3 k).toNat = k := Nat.mod_eq_of_lt (show k < 8 by omega)
  have inLoop : BitVec.ofNat 3 k ≠ 5 := fun h => by simp [h] at idx; omega
  have next : (((b.packed k).pack (b.gb.get ⟨k, by omega⟩)).setIdx (BitVec.ofNat 3 k + 1)).toPhase phasePackDat =
      b.atPass (k + 1) := by
    rw [b.pack_packed, Block.atPass, BitVec.ofNat_add]
    rfl
  rw [exec_packDat_byte (s := s.withBlock (b.atPass k)) (i := ⟨k, by omega⟩) idx inLoop, ← next]
  rfl

/-- The sixth pass leads to PACK.PAD with all six bytes appended. -/
theorem exec_packDat_atPass_five (s : State) (b : Block) : exec .packDat (s.withBlock (b.atPass 5)) =
    .next (s.withBlock (((b.packed 6).setIdx 0).toPhase phasePackPad)) := by
  rw [exec_packDat_lastByte (s := s.withBlock (b.atPass 5)) (i := 5) rfl rfl, ← b.pack_packed (k := 5) (by decide)]
  rfl

section
variable {s : State} (quiet : s.Quiet) (codes : s.block.CodesLegal)
include quiet codes

/-- The passes of PACK.DAT's loop, by the number of them made. -/
theorem runN_atPass (n : Nat) {k : Nat} (hk : k ≤ 5) :
    runN (n + k) (s.withBlock (s.block.atPass 0)) = runN n (s.withBlock (s.block.atPass k)) := by
  induction k generalizing n with
  | zero => rfl
  | succ k ih =>
    obtain ⟨-, -, ecode⟩ := s.block.codesLegal_iff.mp codes
    have idx : (BitVec.ofNat 3 k).toNat < 6 := by simp; omega
    have codes' : (s.block.atPass k).CodesLegal := (Block.codesLegal_iff _).mpr ⟨by simp, idx, ecode⟩
    calc runN (n + (k + 1)) (s.withBlock (s.block.atPass 0))
      _ = runN (n + 1 + k) (s.withBlock (s.block.atPass 0)) := by rw [Nat.add_right_comm, Nat.add_assoc]
      _ = runN (n + 1) (s.withBlock (s.block.atPass k)) := ih (n + 1) (by omega)
      _ = runN n (s.withBlock (s.block.atPass (k + 1))) :=
        runN_withBlock quiet codes' (by simp) rfl (exec_packDat_atPass s s.block (by omega)) n

/-- Ten steps from PACK.OPC, `FRAME` holds the fields appended to what `ACC` held. -/
theorem runN_packOpc (phase : s.block.phase = phasePackOpc) :
    runN 10 s = .next (s.withBlock
      ((((s.block.packed 6).setIdx 0).pack Config.pad).present.toPhase phaseIdle)) := by
  obtain ⟨-, idx, ecode⟩ := s.block.codesLegal_iff.mp codes
  have busy : s.block.phase ≠ phaseIdle := by simp [phase]
  have opcode : decodePhase s.block.phase = .ok .packOpc := by rw [phase]; rfl
  have legal {c : Block} (hp : c.phase.toNat < 9) (hi : c.idx.toNat < 6) (he : c.ecode = s.block.ecode) :
      c.CodesLegal := c.codesLegal_iff.mpr ⟨hp, hi, he ▸ ecode⟩
  calc runN 10 s
    _ = runN 9 (s.withBlock ((s.block.pack Config.opc).toPhase phasePackAdr)) :=
      runN_withBlock quiet codes busy opcode rfl 9
    _ = runN 8 (s.withBlock (s.block.atPass 0)) :=
      runN_withBlock quiet (legal (by simp) (by simpa using idx) (by rfl)) (by simp) rfl
        (exec_packAdr_header s s.block) 8
    _ = runN 3 (s.withBlock (s.block.atPass 5)) := runN_atPass quiet codes 3 le_rfl
    _ = runN 2 (s.withBlock (((s.block.packed 6).setIdx 0).toPhase phasePackPad)) :=
      runN_withBlock quiet (legal (by simp) (by simp) (by rfl)) (by simp) rfl (exec_packDat_atPass_five s s.block) 2
    _ = runN 1 (s.withBlock ((((s.block.packed 6).setIdx 0).pack Config.pad).toPhase phaseEmit)) :=
      runN_withBlock quiet (legal (by simp) (by simp) (by rfl)) (by simp) rfl rfl 1
    _ = _ := runN_withBlock quiet (legal (by simp) (by simp) (by rfl)) (by simp) rfl rfl 0

end

/-! ### The obligations of 42_frame_builder.md -/

/-! #### Tier 2 -/

/-- Settles O12: `Append` bit by bit in closed form, on 64 bits and over the integers. -/
theorem appendSerialIsFieldForm : Obligations.AppendSerialIsFieldForm := by
  refine fun w v => ⟨fun acc => append_eq_shiftLeft_or acc v, fun acc => ⟨appendNat_eq acc v, ?_⟩⟩
  rw [← Nat.shiftLeft_add_eq_or_of_lt v.isLt, Nat.shiftLeft_eq]

/-- Settles O13: `Append` within 64 bits is exact, and the invariant bounds `ACC` by `NB` and `NB` by 64. -/
theorem appendNeverLosesABit : Obligations.AppendNeverLosesABit := by
  refine ⟨fun w n v acc h hn => ⟨?_, append_toNat_lt v h hn⟩, fun s hs busy => ⟨hs.inv.acc_bounded busy, ?_⟩⟩
  · rw [append_toNat v h hn, appendNat_eq]
  · have counts := bitsAppended_cases s.block.phase hs.inv.idx_le
    have nb := hs.inv.nb_determined busy
    omega

/-- Settles O14: the fields fill all 64 bits. -/
theorem frameForgetsTheOldAccumulator : Obligations.FrameForgetsTheOldAccumulator :=
  packFrom_eq_buildFrame

/-- Settles O15: the data field of a frame gives the buffer back, and a word with the constant bits is the frame of its
data field. -/
theorem buildFrameIsInjective : Obligations.BuildFrameIsInjective := by
  refine ⟨fun a b h => ?_, fun w => ⟨?_, fun h => ⟨glyphsOfFrame w, ?_⟩⟩⟩
  · rw [buildFrame_eq_frameOfGlyphs, buildFrame_eq_frameOfGlyphs] at h
    simpa using congrArg glyphsOfFrame h
  · rintro ⟨b, rfl⟩
    exact beq_iff_eq.mp (frameWellFormed_buildFrame b)
  · rw [buildFrame_eq_frameOfGlyphs, frameOfGlyphs_glyphsOfFrame (beq_iff_eq.mpr h)]

/-- Settles O16: the run of the block ends with the fields appended to the old accumulator, which the frame forgets. -/
theorem blockBuildsTheFrame : Obligations.BlockBuildsTheFrame := by
  refine ⟨fun g => (frameClosedForm g).2.1, fun s quiet codes phase => ?_⟩
  exact ⟨_, runN_packOpc quiet codes phase, packFrom_eq_buildFrame s.block.acc s.block.gb, rfl, rfl, rfl⟩

/-- Settles O17: the invariant's value of `NB` and `ACC` in each phase, with `Append` read as concatenation. -/
theorem accumulatorValues : Obligations.AccumulatorValues := by
  intro s hs
  have inv := hs.inv
  obtain ⟨pass1, pass2, pass3, pass4, pass5, pass6⟩ := packGlyphs_concat s.block.gb
  have pass {k : BitVec 3} {x : BitVec 64} (concat : packGlyphs (packHeader 0) s.block.gb k.toNat = x)
      (hp : s.block.phase = phasePackDat) (hi : s.block.idx = k) :
      s.block.nb = BitVec.ofNat 7 (9 + 8 * k.toNat) ∧ s.block.acc = x :=
    (inv.entry_packDat hp hi).imp_right (·.trans concat)
  refine ⟨?_, fun hp => inv.entry hp (by decide), pass rfl, pass pass1, pass pass2, pass pass3, pass pass4, pass pass5,
    fun hp => (inv.entry hp (by decide)).imp_right (·.trans pass6),
    fun hp => (inv.entry hp (by decide)).imp_right (·.trans (buildFrame_eq_frameOfGlyphs s.block.gb))⟩
  rintro (hp | hp | hp | hp) <;> exact inv.entry hp (by decide)

/-- Settles O29: the pass of each index, inside the loop or the last. -/
theorem packDatAppendsOneGlyphByte : Obligations.PackDatAppendsOneGlyphByte := by
  refine ⟨rfl, fun s i hi => ?_⟩
  have values (inv : s.block.Inv) (hp : s.block.phase = phasePackDat) :
      (s.block.pack (s.block.gb.get i)).nb.toNat = 17 + 8 * i.val ∧
      (s.block.pack (s.block.gb.get i)).acc = packGlyphs 0x140 s.block.gb (i.val + 1) := by
    obtain ⟨nb, acc⟩ := inv.pack_byte hp hi
    exact ⟨by omega, acc⟩
  by_cases h5 : s.block.idx = 5
  · exact ⟨_, exec_packDat_lastByte hi h5, rfl, rfl, fun _ => ⟨rfl, rfl⟩, absurd h5, rfl, rfl, ⟨rfl, rfl⟩,
      ⟨rfl, rfl, rfl⟩, ⟨rfl, rfl, rfl⟩, values⟩
  · exact ⟨_, exec_packDat_byte hi h5, rfl, rfl, (absurd · h5), fun _ => ⟨rfl, rfl⟩, rfl, rfl, ⟨rfl, rfl⟩,
      ⟨rfl, rfl, rfl⟩, ⟨rfl, rfl, rfl⟩, values⟩

/-- Settles O31: EMIT's one answer, and the `FRAME` and `DONE` columns of the access matrix. -/
theorem emitPresentsTheFrame : Obligations.EmitPresentsTheFrame := by
  refine ⟨rfl, fun s => ⟨_, rfl, rfl, rfl, rfl, fun k => getElem?_frameBytes _ k.isLt, rfl, rfl, rfl, ⟨rfl, rfl, rfl⟩,
    rfl, rfl, ⟨rfl, rfl, rfl⟩, fun inv hp => ?_⟩, fun i s t he h => ⟨?_, ?_⟩⟩
  · obtain ⟨nb, acc⟩ := inv.entry hp (by decide)
    refine ⟨nb, ?_⟩
    change (frameBytes s.block.acc)[0]? = some 0xA0
    rw [acc]
    exact congrArg (·[0]?) (frameBytesStraddle s.block.gb)
  · exact (exec_effect h).frame_kept he
  · exact (exec_effect h).done_of_done he

/-- Settles O53: in IDLE `NB` holds the count of the last request or 0, and outside IDLE what `PHASE` and `IDX`
give it. -/
theorem bookkeepingNeverWraps : Obligations.BookkeepingNeverWraps := by
  intro s hs
  have inv := hs.inv
  refine ⟨?_, inv.idx_le⟩
  by_cases idle : s.block.phase = phaseIdle
  · obtain nb | nb := inv.nb_in_idle idle <;> simp [nb]
  · rw [inv.nb_determined idle]
    exact bitsAppended_cases _ inv.idx_le

/-! #### Tier 1 -/

/-- Settles O27: PACK.OPC's one answer, from an empty accumulator. -/
theorem packOpcAppendsTheOpcode : Obligations.PackOpcAppendsTheOpcode := by
  refine ⟨rfl, fun s => ⟨_, rfl, rfl, rfl, rfl, rfl, rfl, rfl, ⟨rfl, rfl⟩, ⟨rfl, rfl, rfl⟩, ⟨rfl, rfl, rfl⟩,
    fun inv hp => ?_⟩⟩
  obtain ⟨nb, acc⟩ : s.block.nb = 0 ∧ s.block.acc = 0 := inv.entry hp (by decide)
  exact ⟨acc, nb, congrArg (append · Config.opc) acc, congrArg (· + 3) nb⟩

/-- Settles O28: PACK.ADR's one answer, after the opcode. -/
theorem packAdrAppendsTheAddress : Obligations.PackAdrAppendsTheAddress := by
  refine ⟨rfl, fun s => ⟨_, rfl, rfl, rfl, rfl, rfl, rfl, rfl, ⟨rfl, rfl⟩, ⟨rfl, rfl, rfl⟩, ⟨rfl, rfl, rfl⟩,
    fun inv hp => ?_⟩⟩
  obtain ⟨nb, acc⟩ : s.block.nb = 3 ∧ s.block.acc = append 0 Config.opc := inv.entry hp (by decide)
  exact ⟨(congrArg (append · Config.addr) acc).trans packHeader_zero, congrArg (· + 6) nb⟩

/-- Settles O30: PACK.PAD's one answer, which completes a well-formed frame. -/
theorem packPadAppendsThePadding : Obligations.PackPadAppendsThePadding := by
  refine ⟨rfl, fun s => ⟨_, rfl, rfl, ?_, rfl, rfl, rfl, rfl, rfl, ⟨rfl, rfl⟩, ⟨rfl, rfl, rfl⟩, ⟨rfl, rfl, rfl⟩,
    fun inv hp => ?_⟩⟩
  · exact (append_eq_shiftLeft_or _ _).trans BitVec.or_zero
  · obtain ⟨nb, acc⟩ : s.block.nb = 57 ∧ s.block.acc = packGlyphs (packHeader 0) s.block.gb 6 :=
      inv.entry hp (by decide)
    have frame : append s.block.acc Config.pad = buildFrame s.block.gb := by rw [acc, buildFrame, packFrom]
    obtain ⟨header, padding⟩ := extract_of_frameWellFormed (frameWellFormed_buildFrame s.block.gb)
    rw [← frame] at header padding
    exact ⟨nb, congrArg (· + 7) nb, (extract_extract _ (by decide)).symm.trans
      (congrArg (·.extractLsb' 6 3) header), padding⟩

end Sys2Proof.Machine

/-! # The transport family: the transfers, and the calls of the host that make them

What the transport sends for an operation it was called for (43_transport_downstream.md R171 to R174), and how the host's
call of it goes on to the report (R175, R177). -/

namespace Sys2Proof.Machine

/-! ### One transfer -/

/-- An operation of the bus clocks out the bytes that it was decoded from (30_encoding.md R79, R84). -/
theorem exec_of_decodeTransfer {bytes : List Byte} {i : Instr} (h : decodeTransfer bytes = .ok i) (s : State) :
    exec i s = .next (s.clockOut bytes) := by
  have code := encode_of_decodeTransfer h
  cases i with
  | write | init1 | init2 =>
    cases code
    rfl
  | load | check | ovlDp | ovlBat | packOpc | packAdr | packDat | packPad | emit => cases code

/-- The eight bytes of a word are a well-formed transfer exactly when the word is a frame (30_encoding.md R79, R81). -/
theorem transferWellFormed_frameBytes (w : FrameWord) : transferWellFormed (frameBytes w) = frameWellFormed w :=
  congrArg frameWellFormed (wordOfBytes_frameBytes w)

/-- The operation in the outbox runs from the state in which the transport has taken it up. -/
theorem step_eq_exec_takeOutbox {s : State} {call : TransportCall} {i : Instr} (hr : s.ports.rst = false)
    (hu : s.block.unusedCode = none) (ho : s.bus.outbox = some call) (hd : decodeTransfer call.bytes = .ok i) :
    step s = exec i s.takeOutbox := by
  simp [step, State.turn, hr, hu, ho, hd]

/-- The transport clocks out the bytes of the operation in the outbox, whether they are a row of the opcode table or not
(R173; assumption log 12). -/
theorem step_eq_clockOut {s : State} {call : TransportCall} (hr : s.ports.rst = false)
    (hu : s.block.unusedCode = none) (ho : s.bus.outbox = some call) :
    step s = .next (s.takeOutbox.clockOut call.bytes) := by
  cases hd : decodeTransfer call.bytes with
  | ok i => rw [step_eq_exec_takeOutbox hr hu ho hd, exec_of_decodeTransfer hd]
  | error e => simp [step, State.turn, hr, hu, ho, hd]

/-! ### A call of the transport, from the host's first move to the report -/

/-- The host with these calls still to make. -/
def State.withTodo (s : State) (ops : List HostOp) : State := { s with caller := { s.caller with todo := ops } }

/-- The outcome of a call whose transfer the transport has reported on (R174). -/
def HostResult.ofTransfer (failed : Bool) : HostResult := if failed then .failed .transportFailure else .ok

/-- `s` after a call of the transport made from it: the operation is handed over, clocked out and reported. -/
def State.transferred (s : State) (call : TransportCall) : State :=
  ((s.handOver call).takeOutbox.clockOut call.bytes).finish
    (.ofTransfer (Config.transferFails s.bus.wire.length))

/-- A free host makes the first move of its next call. -/
theorem step_eq_startCall {s : State} {op : HostOp} {rest : List HostOp} (free : s.HostFree)
    (todo : s.caller.todo = op :: rest) : step s = .next ((s.withTodo rest).startCall op) := by
  obtain ⟨⟨hr, ho, hc⟩, codes, idle, noRequest⟩ := free
  refine step_eq_hostMove hr codes ho ?_
  simp [State.hostMove, State.withTodo, Block.reqReady, hc, todo, idle, noRequest]

/-- The host takes the transport's report as the outcome of its call (R174). -/
theorem step_eq_finish {s : State} {failed : Bool} (hr : s.ports.rst = false) (codes : s.block.CodesLegal)
    (ho : s.bus.outbox = none) (hc : s.caller.call = .sending)
    (report : s.bus.report = if failed then .failed else .completed) :
    step s = .next (s.finish (.ofTransfer failed)) := by
  refine step_eq_hostMove hr codes ho ?_
  cases failed <;> simp [State.hostMove, HostResult.ofTransfer, hc, report]

/-- Two steps after the host handed an operation over, the transport has sent it and the host has its report (R177). -/
theorem runN_handOver {s : State} (call : TransportCall) (hr : s.ports.rst = false) (codes : s.block.CodesLegal)
    (n : Nat) : runN (n + 2) (s.handOver call) = runN n (s.transferred call) := by
  have send : step (s.handOver call) = .next ((s.handOver call).takeOutbox.clockOut call.bytes) :=
    step_eq_clockOut hr codes rfl
  have report : step ((s.handOver call).takeOutbox.clockOut call.bytes) = .next (s.transferred call) :=
    step_eq_finish hr codes rfl rfl rfl
  exact (runN_succ send (n + 1)).trans (runN_succ report n)

/-- Three steps of a free host whose next call is this operation of the transport. -/
theorem runN_transportCall {s : State} {op : HostOp} {rest : List HostOp} {call : TransportCall} (free : s.HostFree)
    (todo : s.caller.todo = op :: rest)
    (handsOver : (s.withTodo rest).startCall op = (s.withTodo rest).handOver call) (n : Nat) :
    runN (n + 3) s = runN n ((s.withTodo rest).transferred call) := by
  have ⟨⟨hr, _, _⟩, codes, _, _⟩ := free
  calc runN (n + 3) s
    _ = runN (n + 2) ((s.withTodo rest).handOver call) := runN_succ (handsOver ▸ step_eq_startCall free todo) (n + 2)
    _ = runN n ((s.withTodo rest).transferred call) := runN_handOver (s := s.withTodo rest) call hr codes n

/-- After a call of the transport the host is free again. -/
theorem State.HostFree.transferred {s : State} (free : s.HostFree) (ops : List HostOp) (call : TransportCall) :
    ((s.withTodo ops).transferred call).HostFree := by
  obtain ⟨⟨hr, -, -⟩, codes, idle, noRequest⟩ := free
  exact ⟨⟨hr, rfl, rfl⟩, codes, idle, noRequest⟩

/-! ### The obligations of 43_transport_downstream.md -/

/-! #### Tier 2 -/

/-- Settles O10: the transport clocks out whatever is in its outbox, and under `DONE` the invariant has `FRAME` hold a
frame. -/
theorem transmitSendsWhateverItIsGiven : Obligations.TransmitSendsWhateverItIsGiven := by
  refine ⟨fun s w hr codes ho => ⟨_, _, step_eq_clockOut hr codes ho, rfl, rfl, rfl, rfl, rfl, rfl⟩, fun s hs done => ?_⟩
  rw [transferWellFormed_frameBytes]
  exact hs.inv.frame_wellFormed (hs.inv.framed_when_done done)

/-- Settles O60: the two calls one after the other, each three steps of a free host. -/
theorem startUpSendsTheTwoTransfers : Obligations.StartUpSendsTheTwoTransfers := by
  intro s rest free todo
  have resets := runN_transportCall (call := .resetChip) free todo rfl 3
  have initializes :=
    runN_transportCall (call := .initChip) (free.transferred (.initChip :: rest) .resetChip) rfl rfl 0
  exact ⟨_, _, _, resets.trans initializes, List.append_assoc .., rfl, rfl, rfl⟩

/-! #### Tier 1 -/

/-- Settles O33: INIT1's one answer. -/
theorem init1IsOneTransfer : Obligations.Init1IsOneTransfer :=
  ⟨rfl, fun _ => ⟨_, _, rfl, rfl, rfl, rfl, rfl, rfl, rfl⟩⟩

/-- Settles O34: INIT2's one answer. -/
theorem init2IsOneTransfer : Obligations.Init2IsOneTransfer :=
  ⟨rfl, fun _ => ⟨_, _, rfl, rfl, rfl, rfl, rfl, rfl, rfl⟩⟩

/-- Settles O35: WRITE's one answer, whose frame is the one that the block builds. -/
theorem writeIsOneTransferOfEightBytes : Obligations.WriteIsOneTransferOfEightBytes := by
  intro g s
  rw [buildFrame_eq_frameOfGlyphs]
  exact ⟨_, _, rfl, rfl, rfl, rfl, rfl, rfl, rfl, rfl⟩

/-- Settles O37: with `rst` released and legal codes, a full outbox gives the transport the turn. -/
theorem stepRunsTheTransferInTheOutbox : Obligations.StepRunsTheTransferInTheOutbox :=
  fun _ _ _ => step_eq_exec_takeOutbox

end Sys2Proof.Machine

/-! # The request family: the sequencer's table, a request from LOAD to its end, and `show`

Which step the sequencer takes in each state (44_show_request.md R186), the registers after each step of a request
(R188 to R190), why an accepted request ends (R191), and the host's `show` around it (R185). -/

namespace Sys2Proof.Machine

/-! ### `Req` -/

/-- Selectors that CHECK passes (R121). -/
abbrev Ports.Legal (p : Ports) : Prop := legalSelector p.dpIn.toInt = true ∧ legalSelector p.blIn.toInt = true

theorem req_eq_some_iff {g : GlyphBuffer} {dp bl : Int} {w : FrameWord} : req g dp bl = some w ↔
    (legalSelector dp = true ∧ legalSelector bl = true) ∧ buildFrame (g.or (indicatorMask dp bl)) = w := by
  simp [req, applyIndicators_eq_some_iff, and_assoc]

theorem req_eq_none_iff {g : GlyphBuffer} {dp bl : Int} :
    req g dp bl = none ↔ ¬(legalSelector dp = true ∧ legalSelector bl = true) := by
  rw [req, Option.map_eq_none_iff, applyIndicators_eq_none_iff]

/-- The port carries a legal selector unchanged (30_encoding.md R75). -/
theorem toInt_selOfInt {n : Int} (h : legalSelector n = true) : (selOfInt n).toInt = n := by
  obtain rfl | rfl | rfl | rfl := (legalSelector_iff n).mp h <;> rfl

/-! ### A step of a busy block -/

/-- Nothing around the block moves while it is busy: `rst` is released, the transport is free, and the host has no call
in progress or waits for the outcome of its request. -/
def State.Undisturbed (s : State) : Prop :=
  s.ports.rst = false ∧ s.bus.outbox = none ∧ (s.caller.call = .idle ∨ ∃ after, s.caller.call = .awaiting after)

theorem State.Quiet.undisturbed {s : State} (quiet : s.Quiet) : s.Undisturbed := by
  obtain ⟨hr, ho, hc⟩ := quiet
  exact ⟨hr, ho, .inl hc⟩

theorem State.Undisturbed.hostMove_none {s : State} (h : s.Undisturbed) (busy : s.block.busy = true) :
    s.hostMove = none := by
  obtain ⟨-, -, idle | ⟨after, awaiting⟩⟩ := h
  · exact State.hostMove_none idle (.inl (bne_iff_ne.mp busy))
  · simp [hostMove, awaiting, busy]

/-- A busy block `b` becomes `c` in one micro-operation, whatever surrounds it. -/
def Block.Goes (b c : Block) : Prop :=
  b.CodesLegal ∧ b.busy = true ∧
  ∃ i, decodePhase b.phase = .ok i ∧ ∀ s : State, exec i (s.withBlock b) = .next (s.withBlock c)

theorem Block.Goes.busy {b c : Block} (goes : b.Goes c) : b.busy = true := by
  obtain ⟨-, busy, -⟩ := goes
  exact busy

theorem step_of_goes {s : State} {c : Block} (h : s.Undisturbed) (goes : s.block.Goes c) :
    step s = .next (s.withBlock c) := by
  have ⟨hr, ho, _⟩ := h
  obtain ⟨codes, busy, i, hd, hx⟩ := goes
  exact (step_eq_exec hr codes ho (h.hostMove_none busy) hd).trans (hx s)

/-- `b` becomes `c` in so many micro-operations, busy before each of them. -/
def Block.GoesIn : Nat → Block → Block → Prop
  | 0, b, d => b = d
  | n + 1, b, d => ∃ c, b.Goes c ∧ GoesIn n c d

theorem Block.GoesIn.refl {b : Block} : GoesIn 0 b b := rfl

theorem Block.GoesIn.head {b c d : Block} {n : Nat} (first : b.Goes c) (rest : GoesIn n c d) : GoesIn (n + 1) b d :=
  ⟨c, first, rest⟩

theorem runN_of_goesIn {s : State} {b c : Block} {k : Nat} (h : s.Undisturbed) (goes : b.GoesIn k c) (n : Nat) :
    runN (n + k) (s.withBlock b) = runN n (s.withBlock c) := by
  induction k generalizing b with
  | zero =>
    obtain rfl : b = c := goes
    rfl
  | succ k ih =>
    obtain ⟨d, first, rest⟩ := goes
    exact (runN_succ (step_of_goes (s := s.withBlock b) h first) _).trans (ih rest)

/-- Whatever the host drives on the request port before each step, a busy block goes its way (10_state.md R35). -/
theorem runWith_of_goesIn {inputs : List Inputs} {s : State} {c : Block} (quiet : s.Quiet)
    (goes : s.block.GoesIn inputs.length c) : ∃ t, runWith inputs s = .next t ∧ t.block = c := by
  induction inputs generalizing s with
  | nil => exact ⟨s, rfl, goes⟩
  | cons i is ih =>
    obtain ⟨d, first, rest⟩ := goes
    have driven : step (s.drive i) = .next ((s.drive i).withBlock d) :=
      step_of_goes (State.Quiet.undisturbed (s := s.drive i) quiet) first
    simp only [runWith, driven]
    exact ih (s := (s.drive i).withBlock d) quiet rest

/-! ### LOAD -/

/-- An idle block accepts the request on its port when no other agent moves (R120). -/
theorem step_eq_accept {s : State} (hr : s.ports.rst = false) (codes : s.block.CodesLegal) (ho : s.bus.outbox = none)
    (hm : s.hostMove = none) (idle : s.block.phase = phaseIdle) (valid : s.ports.reqValid = true) :
    step s = .next (s.withBlock (s.block.accept s.ports)) := by
  have load : decodePhase s.block.phase = .ok .load := by rw [idle]; rfl
  exact (step_eq_exec hr codes ho hm load).trans (exec_load_accept valid)

/-- A request accepted at the first step, with the request port driven freely after it. -/
theorem runWith_request {s : State} {first : Inputs} {rest : List Inputs} {c : Block} (quiet : s.Quiet)
    (codes : s.block.CodesLegal) (idle : s.block.phase = phaseIdle) (valid : first.reqValid = true)
    (goes : (s.block.accept (s.drive first).ports).GoesIn rest.length c) :
    ∃ t, runWith (first :: rest) s = .next t ∧ t.block = c := by
  have ⟨hr, ho, hc⟩ := quiet
  have accept : step (s.drive first) = .next ((s.drive first).withBlock (s.block.accept (s.drive first).ports)) :=
    step_eq_accept hr codes ho (State.hostMove_none hc (.inr (.inl valid))) idle valid
  simp only [runWith, accept]
  exact runWith_of_goesIn (s := (s.drive first).withBlock _) quiet goes

/-! ### The registers after each step of a request -/

/-- The accepted request with the mask vector of its selectors lit (R124). -/
def Block.lit (b : Block) (p : Ports) : Block :=
  (b.accept p).overlay (indicatorMask p.dpIn.toInt p.blIn.toInt)

/-- The block `k` steps after it accepted a legal request, up to the thirteenth, which is EMIT (R190). -/
def Block.request (b : Block) (p : Ports) : Nat → Block
  | 0 => b.accept p
  | 1 => (b.accept p).toPhase phaseOvlDp
  | 2 => ((b.accept p).overlay (dpMask p.dpIn.toInt)).toPhase phaseOvlBat
  | 3 => (b.lit p).toPhase phasePackOpc
  | 4 => ((b.lit p).pack Config.opc).toPhase phasePackAdr
  | 11 => (((b.lit p).packed 6).setIdx 0).toPhase phasePackPad
  | 12 => ((((b.lit p).packed 6).setIdx 0).pack Config.pad).toPhase phaseEmit
  | 13 => ((((b.lit p).packed 6).setIdx 0).pack Config.pad).present.toPhase phaseIdle
  | k + 5 => (b.lit p).atPass k

section
variable {b : Block} {p : Ports}

/-- Each of the thirteen micro-operations after LOAD, by the equation of its operation. -/
theorem Block.request_goes (legal : p.Legal) {k : Nat} (hk : k < 13) : (b.request p k).Goes (b.request p (k + 1)) := by
  have ovlBat (s : State) : exec .ovlBat (s.withBlock (b.request p 2)) = .next (s.withBlock (b.request p 3)) := by
    simp only [request, lit, indicatorMask]
    rw [exec_ovlBat, ← levelMask_of_legal legal.2, ← overlay_overlay]
    rfl
  match k with
  | 0 => exact ⟨rfl, rfl, .check, rfl, fun s => exec_check_legal (s := s.withBlock (b.accept p)) legal⟩
  | 1 => exact ⟨rfl, rfl, .ovlDp, rfl, fun s =>
      exec_ovlDp_legal (s := s.withBlock ((b.accept p).toPhase phaseOvlDp)) legal.1⟩
  | 2 => exact ⟨rfl, rfl, .ovlBat, rfl, ovlBat⟩
  | 3 => exact ⟨rfl, rfl, .packOpc, rfl, fun _ => rfl⟩
  | 4 => exact ⟨rfl, rfl, .packAdr, rfl, fun s => exec_packAdr_header s (b.lit p)⟩
  | 5 | 6 | 7 | 8 | 9 =>
    exact ⟨rfl, rfl, .packDat, rfl, fun s => exec_packDat_atPass s (b.lit p) (by decide)⟩
  | 10 => exact ⟨rfl, rfl, .packDat, rfl, fun s => exec_packDat_atPass_five s (b.lit p)⟩
  | 11 => exact ⟨rfl, rfl, .packPad, rfl, fun _ => rfl⟩
  | 12 => exact ⟨rfl, rfl, .emit, rfl, fun _ => rfl⟩

theorem Block.request_goesIn (legal : p.Legal) {j k m : Nat} (hm : j + k = m) (le : m ≤ 13) :
    (b.request p j).GoesIn k (b.request p m) := by
  induction k generalizing j with
  | zero =>
    obtain rfl : j = m := hm
    exact .refl
  | succ k ih => exact .head (request_goes legal (by omega)) (ih (by omega))

theorem Block.accept_goesIn_request (legal : p.Legal) {k : Nat} (hk : k ≤ 13) :
    (b.accept p).GoesIn k (b.request p k) :=
  request_goesIn legal (Nat.zero_add k) hk

/-- The end of an illegal request: CHECK raises. -/
theorem Block.accept_goesIn_raise (illegal : ¬p.Legal) :
    (b.accept p).GoesIn 1 ((b.accept p).raise .invalidArgument) := by
  have raises : (b.accept p).Goes ((b.accept p).raise .invalidArgument) :=
    ⟨rfl, rfl, .check, rfl, fun s => exec_check_illegal (s := s.withBlock (b.accept p)) illegal⟩
  exact .head raises .refl

end

/-! ### The outcome of a request (R189) -/

/-- What the host can tell of a request: the phase, the flags, and the frame once it is valid. -/
def Block.SameOutcome (b c : Block) : Prop :=
  b.phase = c.phase ∧ b.done = c.done ∧ b.err = c.err ∧ b.ecode = c.ecode ∧ (b.done = true → b.frame = c.frame)

theorem Block.request_sameOutcome (b c : Block) (p : Ports) {k : Nat} (hk : k ≤ 13) :
    (b.request p k).SameOutcome (c.request p k) := by
  match k with
  | 0 | 1 | 2 | 3 | 4 | 5 | 6 | 7 | 8 | 9 | 10 | 11 | 12 => exact ⟨rfl, rfl, rfl, rfl, nofun⟩
  | 13 => exact ⟨rfl, rfl, rfl, rfl, fun _ => rfl⟩

/-- Two blocks that accept the same inputs come to the same outcome, as far as a request goes. -/
theorem Block.accept_goesIn_sameOutcome (b c : Block) {p : Ports} {k : Nat} (hk : k ≤ 13) (h : p.Legal ∨ k ≤ 1) :
    ∃ b' c', (b.accept p).GoesIn k b' ∧ (c.accept p).GoesIn k c' ∧ b'.SameOutcome c' := by
  by_cases legal : p.Legal
  · exact ⟨_, _, accept_goesIn_request legal hk, accept_goesIn_request legal hk, request_sameOutcome b c p hk⟩
  · match k, h.resolve_left legal with
    | 0, _ => exact ⟨_, _, .refl, .refl, rfl, rfl, rfl, rfl, nofun⟩
    | 1, _ => exact ⟨_, _, accept_goesIn_raise legal, accept_goesIn_raise legal, rfl, rfl, rfl, rfl, nofun⟩

/-! ### A busy block of the invariant always goes on, and not for ever (R186, R191) -/

theorem decodePhase_of_le_eight {c : BitVec 4} (h : c.toNat ≤ 8) : ∃ i, decodePhase c = .ok i := by
  have decodes : ∀ c : BitVec 4, c.toNat ≤ 8 → (decodePhase c).isOk = true := by decide
  cases hd : decodePhase c with
  | ok i => exact ⟨i, rfl⟩
  | error e => cases hd ▸ decodes c h

theorem Block.Goes.effect {b c : Block} (goes : b.Goes c) (p : Ports) :
    ∃ i, decodePhase b.phase = .ok i ∧ Effect p b i c := by
  obtain ⟨-, -, i, hd, hx⟩ := goes
  exact ⟨i, hd, exec_effect (hx { State.reset with ports := p })⟩

/-- An operation other than LOAD brings the request nearer to its end (R190). -/
theorem Effect.stepsLeft_lt {p : Ports} {b c : Block} {i : Instr} (h : Effect p b i c)
    (hp : encode i = .phase b.phase) (hl : i ≠ .load) (idx : b.idx.toNat ≤ 5) : c.stepsLeft < b.stepsLeft := by
  have phase : ∀ q, encode i = .phase q → b.phase = q := fun q hq => Code.phase.inj (hp.symm.trans hq)
  cases h using Effect.elim with
  | accept | hold => exact absurd rfl hl
  | pass | raise | noPoint | point | battery | opcode | address | padding | present =>
    simp [Block.stepsLeft, phase _ rfl]
  | lastByte h5 => simp [Block.stepsLeft, phase _ rfl, h5]
  | byte j hj h5 =>
    have lt : b.idx.toNat < 5 := lt_of_le_of_ne idx fun he => h5 (BitVec.eq_of_toNat_eq he)
    simpa [Block.stepsLeft, phase _ rfl] using show 8 - (b.idx.toNat + 1) % 8 < 8 - b.idx.toNat by omega
  | write | init1 | init2 => cases hp

/-- An operation that ends a request leaves exactly one of `DONE` and `ERR` set (R191). -/
theorem Effect.done_eq_not_err {p : Ports} {b c : Block} {i : Instr} (h : Effect p b i c)
    (hp : encode i = .phase b.phase) (hl : i ≠ .load) (clear : b.done = false ∧ b.err = false)
    (idle : c.phase = phaseIdle) : c.done = !c.err := by
  obtain ⟨done, err⟩ := clear
  cases h using Effect.elim with
  | accept | hold => exact absurd rfl hl
  | raise => simp [done]
  | present => simp [err]
  | pass | noPoint | point | battery | opcode | address | lastByte | byte | padding => simp at idle
  | write | init1 | init2 => cases hp

theorem Block.stepsLeft_le (b : Block) : b.stepsLeft ≤ 13 := by
  unfold stepsLeft
  split <;> omega

namespace Block.Inv

variable {b : Block}

/-- Under the invariant no micro-operation stops: the selector of OVL.DP has been checked and `IDX` names a byte. -/
theorem goes (inv : b.Inv) (busy : b.busy = true) : ∃ c, b.Goes c := by
  obtain ⟨i, hd⟩ := decodePhase_of_le_eight inv.phase_legal
  have hp := encode_of_decodePhase hd
  have go {c : Block} (hx : ∀ s : State, exec i (s.withBlock b) = .next (s.withBlock c)) : ∃ c, b.Goes c :=
    ⟨c, inv.codesLegal, busy, i, hd, hx⟩
  cases i with
  | load => exact absurd (Code.phase.inj hp).symm (bne_iff_ne.mp busy)
  | check =>
    by_cases legal : legalSelector b.dp.toInt = true ∧ legalSelector b.bl.toInt = true
    · exact go (c := b.toPhase phaseOvlDp) fun s => exec_check_legal (s := s.withBlock b) legal
    · exact go (c := b.raise .invalidArgument) fun s => exec_check_illegal (s := s.withBlock b) legal
  | ovlDp =>
    have legal := (inv.selectors_checked (two_le_of_encode hp (by simp) (by simp))).1
    exact go (c := (b.overlay (dpMask b.dp.toInt)).toPhase phaseOvlBat) fun s =>
      exec_ovlDp_legal (s := s.withBlock b) legal
  | ovlBat => exact go (c := (b.lightBattery b.bl.toInt).toPhase phasePackOpc) fun _ => rfl
  | packOpc => exact go (c := (b.pack Config.opc).toPhase phasePackAdr) fun _ => rfl
  | packAdr => exact go (c := ((b.pack Config.addr).setIdx 0).toPhase phasePackDat) fun _ => rfl
  | packDat =>
    have lt : b.idx.toNat < 6 := Nat.lt_succ_of_le inv.idx_le
    by_cases h5 : b.idx = 5
    · exact go (c := ((b.pack (b.gb.get ⟨_, lt⟩)).setIdx 0).toPhase phasePackPad) fun s =>
        exec_packDat_lastByte (s := s.withBlock b) rfl h5
    · exact go (c := ((b.pack (b.gb.get ⟨_, lt⟩)).setIdx (b.idx + 1)).toPhase phasePackDat) fun s =>
        exec_packDat_byte (s := s.withBlock b) rfl h5
  | packPad => exact go (c := (b.pack Config.pad).toPhase phaseEmit) fun _ => rfl
  | emit => exact go (c := b.present.toPhase phaseIdle) fun _ => rfl
  | write | init1 | init2 => cases hp

/-- A request in progress ends within the steps left. -/
theorem goesIn_idle {b : Block} (inv : b.Inv) (busy : b.busy = true) : ∃ k c, k ≤ b.stepsLeft ∧ b.GoesIn k c ∧
    c.phase = phaseIdle ∧ c.done = !c.err := by
  obtain ⟨c, first⟩ := inv.goes busy
  obtain ⟨i, hd, he⟩ := first.effect State.reset.ports
  have hp := encode_of_decodePhase hd
  have going : b.phase ≠ phaseIdle := bne_iff_ne.mp busy
  have notLoad : i ≠ .load := by
    rintro rfl
    exact going (Code.phase.inj hp).symm
  have nearer : c.stepsLeft < b.stepsLeft := he.stepsLeft_lt hp notLoad inv.idx_le
  by_cases idle : c.phase = phaseIdle
  · exact ⟨1, c, by omega, .head first .refl, idle, he.done_eq_not_err hp notLoad (inv.clear_while_busy going) idle⟩
  · obtain ⟨k, d, hk, rest, ended⟩ := goesIn_idle (inv.of_effect hp he) (bne_iff_ne.mpr idle)
    exact ⟨k + 1, d, by omega, .head first rest, ended⟩
termination_by b.stepsLeft

end Block.Inv

/-- A row of the transition table: the step of a busy block is the micro-operation that its phase names, and the next
state has one of that operation's effects (R186). -/
theorem step_row {s : State} {q : BitVec 4} {i : Instr} {P : State → Prop} (quiet : s.Quiet) (inv : s.block.Inv)
    (hp : s.block.phase = q) (hd : decodePhase q = .ok i) (busy : q ≠ phaseIdle)
    (row : ∀ t : State, Effect s.ports s.block i t.block → P t) :
    step s = exec i s ∧ ∃ t, step s = .next t ∧ P t := by
  subst hp
  have ⟨hr, ho, hc⟩ := quiet
  have runs : step s = exec i s := step_eq_exec hr inv.codesLegal ho (State.hostMove_none hc (.inl busy)) hd
  obtain ⟨c, goes⟩ := inv.goes (bne_iff_ne.mpr busy)
  have next : step s = .next (s.withBlock c) := step_of_goes quiet.undisturbed goes
  exact ⟨runs, _, next, row _ (exec_effect (runs.symm.trans next))⟩

/-! ### `show` (R185) -/

/-- The first move of `show` with legal selectors puts the encoded text on the request port. -/
theorem startCall_showText {s : State} {text : List Char} {dp bl : Option Int}
    (legal : legalSelector (selectorArg dp) = true ∧ legalSelector (selectorArg bl) = true) :
    s.startCall (.showText text dp bl) =
      s.putRequest (encodeText text) (selOfInt (selectorArg dp)) (selOfInt (selectorArg bl)) .transmit := by
  simp [State.startCall, legal]

/-- `show` checks its selectors before any encoding work. -/
theorem startCall_showText_illegal {s : State} {text : List Char} {dp bl : Option Int}
    (illegal : ¬(legalSelector (selectorArg dp) = true ∧ legalSelector (selectorArg bl) = true)) :
    s.startCall (.showText text dp bl) = s.finish (.failed .invalidArgument) := by
  simp [State.startCall, illegal]

section
variable {s : State} (hr : s.ports.rst = false) (codes : s.block.CodesLegal) (ho : s.bus.outbox = none)
include hr codes ho

/-- The host withdraws a request that the block has accepted (10_state.md R35). -/
theorem step_eq_withdraw {after : AfterRequest} (presented : s.caller.call = .presented after)
    (busy : s.block.busy = true) : step s = .next (s.withdraw after) := by
  refine step_eq_hostMove hr codes ho ?_
  simp [State.hostMove, presented, busy]

/-- The host hands a finished frame to the transport. -/
theorem step_eq_transmit (awaiting : s.caller.call = .awaiting .transmit) (idle : s.block.busy = false)
    (done : s.block.done = true) (framed : s.block.framed = true) :
    step s = .next (s.handOver (.transmit s.block.frame)) := by
  refine step_eq_hostMove hr codes ho ?_
  simp [State.hostMove, State.readResult, awaiting, idle, done, framed]

/-- Eighteen steps of a host that presents a legal request and wants its frame transmitted: LOAD, the withdrawal, the
thirteen micro-operations that are left, the reading of the result, the transfer and its report. -/
theorem runN_presented (idle : s.block.phase = phaseIdle) (valid : s.ports.reqValid = true) (legal : s.ports.Legal)
    (presented : s.caller.call = .presented .transmit) :
    runN 18 s = .next (((s.withdraw .transmit).withBlock (s.block.request s.ports 13)).transferred
      (.transmit (s.block.request s.ports 13).frame)) := by
  have waits : s.hostMove = none := by simp [State.hostMove, Block.busy, presented, idle]
  have accepts := step_eq_accept hr codes ho waits idle valid
  have withdraws := step_eq_withdraw (s := s.withBlock (s.block.accept s.ports)) hr rfl ho presented rfl
  have computes := runN_of_goesIn (s := s.withdraw .transmit) ⟨hr, ho, .inr ⟨_, rfl⟩⟩
    (Block.accept_goesIn_request (b := s.block) legal le_rfl) 3
  have reads := step_eq_transmit (s := (s.withdraw .transmit).withBlock (s.block.request s.ports 13)) hr rfl ho rfl rfl
    rfl rfl
  calc runN 18 s
    _ = runN 17 (s.withBlock (s.block.accept s.ports)) := runN_succ accepts 17
    _ = runN 16 ((s.withdraw .transmit).withBlock (s.block.accept s.ports)) := runN_succ withdraws 16
    _ = runN 3 ((s.withdraw .transmit).withBlock (s.block.request s.ports 13)) := computes
    _ = runN 2 (((s.withdraw .transmit).withBlock (s.block.request s.ports 13)).handOver
          (.transmit (s.block.request s.ports 13).frame)) := runN_succ reads 2
    _ = _ := runN_handOver (s := (s.withdraw .transmit).withBlock (s.block.request s.ports 13)) _ hr rfl 0

end

/-! ### The obligations of 44_show_request.md -/

/-- Settles O39: a busy row is the effect of its micro-operation, which the invariant keeps from stopping; in IDLE the
step is LOAD. -/
theorem transitionTable : Obligations.TransitionTable := by
  intro s quiet todo inv
  have ⟨hr, ho, hc⟩ := quiet
  have load (hp : s.block.phase = phaseIdle) : step s = exec .load s :=
    step_eq_exec hr inv.codesLegal ho (State.hostMove_none hc (.inr (.inr todo))) (by rw [hp]; rfl)
  refine ⟨fun hp noRequest => (load hp).trans (exec_load_hold noRequest),
    fun hp valid => ⟨load hp, _, (load hp).trans (exec_load_accept valid), rfl⟩,
    fun hp hd hb => step_row quiet inv hp rfl (by decide) fun t he => ?passes,
    fun hp illegal => step_row quiet inv hp rfl (by decide) fun t he => ?raises,
    fun hp => step_row quiet inv hp rfl (by decide) fun t he => ?point,
    fun hp => step_row quiet inv hp rfl (by decide) fun t he => ?battery,
    fun hp => step_row quiet inv hp rfl (by decide) fun t he => congrArg Block.phase he,
    fun hp => step_row quiet inv hp rfl (by decide) fun t he => congrArg Block.phase he,
    fun hp lt => step_row quiet inv hp rfl (by decide) fun t he => ?byte,
    fun hp h5 => step_row quiet inv hp rfl (by decide) fun t he => ?lastByte,
    fun hp => step_row quiet inv hp rfl (by decide) fun t he => congrArg Block.phase he,
    fun hp => step_row quiet inv hp rfl (by decide) fun t he => congrArg Block.phase he⟩
  case passes =>
    obtain ⟨-, he⟩ | ⟨illegal, -⟩ := he
    · exact congrArg Block.phase he
    · exact absurd ⟨hd, hb⟩ illegal
  case raises =>
    obtain ⟨⟨hd, hb⟩, -⟩ | ⟨-, he⟩ := he
    · simp [hd, hb] at illegal
    · exact ⟨congrArg Block.phase he, congrArg Block.err he⟩
  case point =>
    obtain he | ⟨_, -, he⟩ := he
    · exact congrArg Block.phase he
    · exact congrArg Block.phase he
  case battery =>
    obtain ⟨_, -, he⟩ := he
    exact congrArg Block.phase he
  case byte =>
    obtain ⟨h5, -⟩ | ⟨_, -, -, he⟩ := he
    · simp [h5] at lt
    · exact ⟨congrArg Block.phase he, congrArg Block.idx he⟩
  case lastByte =>
    obtain ⟨-, he⟩ | ⟨_, -, inLoop, -⟩ := he
    · exact ⟨congrArg Block.phase he, congrArg Block.idx he⟩
    · exact absurd h5 inLoop

/-- Settles O40: the registers at the end of a legal request and of an illegal one, and the closed form of a frame. -/
theorem requestComputesReq : Obligations.RequestComputesReq := by
  intro s first rest quiet codes idle valid
  refine ⟨fun w hw len => ?_, fun hw len => ?_, req_eq_none_iff, fun w hw => ?_⟩
  · obtain ⟨legal, rfl⟩ := req_eq_some_iff.mp hw
    have goes := Block.accept_goesIn_request (b := s.block) (p := (s.drive first).ports) legal le_rfl
    obtain ⟨t, run, ht⟩ := runWith_request quiet codes idle valid (by rw [len]; exact goes)
    exact ⟨t, run, ht ▸ ⟨rfl, rfl, rfl, rfl⟩⟩
  · have goes := Block.accept_goesIn_raise (b := s.block) (p := (s.drive first).ports) (req_eq_none_iff.mp hw)
    obtain ⟨t, run, ht⟩ := runWith_request quiet codes idle valid (by rw [len]; exact goes)
    exact ⟨t, run, ht ▸ ⟨rfl, rfl, rfl, rfl, rfl⟩⟩
  · obtain ⟨-, rfl⟩ := req_eq_some_iff.mp hw
    exact (frameClosedForm _).2.1

/-- Settles O41: the two blocks accept the same inputs, and the inputs after LOAD are not read. -/
theorem outcomeDependsOnTheSampledInputsOnly : Obligations.OutcomeDependsOnTheSampledInputsOnly := by
  intro s1 s2 t1 t2 first rest1 rest2 quiet1 quiet2 codes1 codes2 idle1 idle2 valid sameLength run1 run2 le h
  have ⟨hr1, _, _⟩ := quiet1
  have ⟨hr2, _, _⟩ := quiet2
  have samePorts : (s2.drive first).ports = (s1.drive first).ports := by simp [hr1, hr2]
  obtain ⟨c1, c2, goes1, goes2, same⟩ :=
    Block.accept_goesIn_sameOutcome s1.block s2.block (p := (s1.drive first).ports) le h
  obtain ⟨_, run1', rfl⟩ := runWith_request quiet1 codes1 idle1 valid goes1
  obtain ⟨_, run2', rfl⟩ := runWith_request quiet2 codes2 idle2 valid (samePorts ▸ sameLength ▸ goes2)
  cases run1.symm.trans run1'
  cases run2.symm.trans run2'
  exact same

/-- Settles O42: the block is busy before each of its micro-operations, thirteen after a legal LOAD and one after an
illegal one. -/
theorem stepCounts : Obligations.StepCounts := by
  intro s quiet codes idle valid
  have run {k : Nat} {c : Block} (goes : (s.block.accept s.ports).GoesIn k c) :
      runN (k + 1) s = .next (s.withBlock c) :=
    (runN_accept quiet codes idle valid k).trans (k.zero_add ▸ runN_of_goesIn quiet.undisturbed goes 0)
  refine ⟨fun hd hb => ⟨fun k pos lt => ?_, ?_⟩, fun h => ⟨?_, ?_⟩⟩
  · obtain ⟨j, rfl⟩ := Nat.exists_eq_add_of_le' pos
    exact ⟨_, run (Block.accept_goesIn_request ⟨hd, hb⟩ (by omega)), (Block.request_goes ⟨hd, hb⟩ (by omega)).busy⟩
  · exact ⟨_, run (Block.accept_goesIn_request ⟨hd, hb⟩ le_rfl), rfl, rfl⟩
  · exact ⟨_, run .refl, rfl⟩
  · have illegal : ¬s.ports.Legal := fun ⟨hd, hb⟩ => by simp [hd, hb] at h
    exact ⟨_, run (Block.accept_goesIn_raise illegal), rfl, rfl⟩

/-- Settles O43: under the invariant every step of a busy block brings the request nearer to its end. -/
theorem acceptedRequestsEnd : Obligations.AcceptedRequestsEnd := by
  intro s inputs quiet inv busy len
  obtain ⟨k, c, hk, goes, idle, flags⟩ := inv.goesIn_idle (bne_iff_ne.mpr busy)
  have takes : (inputs.take k).length = k := List.length_take_of_le (len ▸ hk)
  obtain ⟨t, run, rfl⟩ := runWith_of_goesIn (inputs := inputs.take k) quiet (takes.symm ▸ goes)
  exact ⟨s.block.stepsLeft_le, k, t, hk, run, idle, flags⟩

/-- Settles O58: the first move of the call is its last. -/
theorem showRejectsIllegalSelectors : Obligations.ShowRejectsIllegalSelectors := by
  intro s text dp bl rest free todo illegal
  rw [← legalSelector_iff, ← legalSelector_iff] at illegal
  exact ⟨_, (step_eq_startCall free todo).trans (congrArg _ (startCall_showText_illegal illegal)),
    rfl, rfl, rfl, rfl, rfl, rfl⟩

/-- Settles O59: the first move presents the encoded text, and eighteen steps later the transport has reported. -/
theorem showTransmitsTheFrame : Obligations.ShowTransmitsTheFrame := by
  intro s text dp bl rest free todo hdp hbl
  have hd : legalSelector (selectorArg dp) = true := (legalSelector_iff _).mpr hdp
  have hb : legalSelector (selectorArg bl) = true := (legalSelector_iff _).mpr hbl
  have ⟨⟨hr, ho, _⟩, codes, idle, _⟩ := free
  have presents := (step_eq_startCall free todo).trans (congrArg _ (startCall_showText ⟨hd, hb⟩))
  have shows := (runN_succ presents 18).trans (runN_presented hr codes ho idle rfl
    ⟨(congrArg legalSelector (toInt_selOfInt hd)).trans hd, (congrArg legalSelector (toInt_selOfInt hb)).trans hb⟩ rfl)
  refine ⟨_, _, _, shows, req_eq_some_iff.mpr ⟨⟨hd, hb⟩, ?_⟩, rfl, rfl, rfl, rfl, rfl, rfl⟩
  change _ = buildFrame ((encodeText text).or
    (indicatorMask (selOfInt (selectorArg dp)).toInt (selOfInt (selectorArg bl)).toInt))
  rw [toInt_selOfInt hd, toInt_selOfInt hb]
  rfl

end Sys2Proof.Machine

/-! # The exceptions family: raising `InvalidArgument` at CHECK (60_exceptions.md R203) -/

namespace Sys2Proof.Machine

/-- CHECK of a selector outside {-1, 0, 1, 2} raises, whatever surrounds the block. -/
theorem Block.goes_raise {b : Block} (codes : b.CodesLegal) (hp : b.phase = phaseCheck)
    (illegal : ¬(legalSelector b.dp.toInt = true ∧ legalSelector b.bl.toInt = true)) :
    b.Goes (b.raise .invalidArgument) := by
  have busy : b.busy = true := by rw [Block.busy, hp]; rfl
  have check : decodePhase b.phase = .ok .check := by rw [hp]; rfl
  exact ⟨codes, busy, .check, check, fun s => exec_check_illegal (s := s.withBlock b) illegal⟩

/-- Settles O20: the step is `raise`, and the registers it keeps are clear at CHECK by the invariant. -/
theorem raisingEndsTheRequest : Obligations.RaisingEndsTheRequest := by
  intro s quiet inv hp illegal
  have raises : step s = .next (s.withBlock (s.block.raise .invalidArgument)) :=
    step_of_goes quiet.undisturbed (Block.goes_raise inv.codesLegal hp illegal)
  obtain ⟨nb, acc⟩ : s.block.nb = 0 ∧ s.block.acc = 0 := inv.entry hp (by decide)
  have notDone : s.block.done = false := (inv.clear_while_busy (by rw [hp]; decide)).1
  exact ⟨_, raises, rfl, rfl, rfl, notDone, rfl, acc, nb, rfl, rfl, ⟨rfl, rfl⟩, ⟨rfl, rfl, rfl⟩⟩

end Sys2Proof.Machine

/-! # The reset and hazards family: the stale frame, and reset (70_reset_and_hazards.md) -/

namespace Sys2Proof.Machine

/-! ### `FRAME` until EMIT (R242) -/

/-- With `rst` released, only the step of EMIT's phase writes `FRAME` (R242, 20_memory.md R61). -/
theorem step_keeps_frame {s t : State} (hr : s.ports.rst = false) (hp : s.block.phase ≠ phaseEmit)
    (h : step s = .next t) : t.block.frame = s.block.frame := by
  obtain ⟨hr', -⟩ | ⟨_, _, -, -, -, hd, hx⟩ | ⟨_, -, -, -, rfl⟩ | ⟨i, -, -, -, -, hd, hx⟩ | ⟨-, -, -, hm⟩ := step_cases h
  · simp [hr] at hr'
  · cases (exec_of_decodeTransfer hd _).symm.trans hx
    rfl
  · rfl
  · have notEmit : i ≠ .emit := by
      rintro rfl
      exact hp (Code.phase.inj (encode_of_decodePhase hd)).symm
    exact (exec_effect hx).frame_kept notEmit
  · exact congrArg Block.frame (State.hostMove_block hm).1

/-- Once the host has handed over what `frame_out` shows, the transport sends the eight bytes of `FRAME`, finished or
stale, and the block does not notice (R242, 60_exceptions.md R211 (d)). -/
theorem step_handOver_frameOut {s : State} (hr : s.ports.rst = false) (codes : s.block.CodesLegal)
    (framed : s.block.framed = true) : ∃ t failed, step (s.handOver (.transmit s.frameOut)) = .next t ∧
      t.bus.wire = s.bus.wire ++ [{ bytes := frameBytes s.block.frame, failed := failed }] ∧ t.block = s.block := by
  rw [State.frameOut_framed framed]
  exact ⟨_, _, step_eq_clockOut hr codes rfl, rfl, rfl⟩

/-! ### The obligations of 70_reset_and_hazards.md -/

/-- Settles O45: the flags are clear by the invariant, only EMIT writes `FRAME`, and a transmission at any moment, or as a
call, hands `frame_out` over for the transport to send next. -/
theorem staleFrameUntilEmit : Obligations.StaleFrameUntilEmit := by
  refine ⟨fun s hs => hs.inv.clear_while_busy, fun s t => step_keeps_frame, ?_, ?_⟩
  · rintro s ⟨hr, ho, hc⟩ codes framed
    rw [State.transmitNow_free ho hc]
    exact step_handOver_frameOut hr codes framed
  · intro s rest free framed todo
    have ⟨⟨hr, _, _⟩, codes, _, _⟩ := free
    obtain ⟨t, failed, sends, wire, block⟩ := step_handOver_frameOut (s := s.withTodo rest) hr codes framed
    exact ⟨t, failed, (runN_succ (step_eq_startCall free todo) 1).trans (runN_succ sends 0), wire, block⟩

/-- Settles O49: `rst` is looked at before any other agent's move, and `resetBlock` changes the block and `rst` alone. -/
theorem resetWinsOverEverything : Obligations.ResetWinsOverEverything :=
  fun _ hr => ⟨_, step_eq_resetBlock hr, rfl, rfl, rfl, rfl, rfl, rfl, rfl⟩

end Sys2Proof.Machine
